-- ==== Sys2Proof/Word.lean ====
section
/-! DEFINITION. The word types of TPQ-1 (spec/00_scope.md R7, R8): every value is an unsigned bit vector. -/

namespace Sys2Proof

/-- One byte of the blob memory OUT (R26). -/
abbrev Byte := BitVec 8

/-- One lookup-table entry, `LUT_ENTRY_BITS` = 16 (R7, R22). -/
abbrev Entry := BitVec 16

/-- A quantized pixel, `Q_BITS` = 16 (R7). -/
abbrev QPixel := BitVec 16

/-- A host register, an RGBA8 pixel or a command word: `REG_BITS` = `PIX_BITS` = 32 (R7, R67). -/
abbrev Word := BitVec 32

/-- A host offset inside the block, `HOST_ADDR_BITS` = 17 (R7, R49). -/
abbrev Offset := BitVec 17

end Sys2Proof
end

