-- ==== Sys2Proof/Config.lean ====
section
/-! DEFINITION. What an implementation of TPQ-1 fixes, the closed sets of names its parameters range over,
and the one free value of the model (spec/00_scope.md R6, R7; spec/30_encoding.md R70, R71). -/

namespace Sys2Proof

/-- The three supported dimensions, which also name the lookup-table banks (R6, R22). Code 3 is reserved (R70). -/
inductive Dim where
  /-- 24×24, DIM code 0. -/
  | d24
  /-- 48×48, DIM code 1. -/
  | d48
  /-- 256×128, DIM code 2. -/
  | d256
  deriving DecidableEq, Repr

/-- The two pixel formats (R71). -/
inductive Format where
  /-- FMT 0. -/
  | rgb565
  /-- FMT 1. -/
  | rgba4444
  deriving DecidableEq, Repr

/-- The Boolean parameter of one instance (R7). The other parameters the spec leaves OPEN, `TPQ_BASE` and
`NUM_INSTANCES`, belong to the platform (Machine/Platform.lean). -/
structure Config where
  /-- `HAS_VERIFY`: MAPVERIFY is present. -/
  hasVerify : Bool
  deriving DecidableEq, Repr

/-- TPQ-1 with the parameter at the spec's default: `HAS_VERIFY` is "true by default" (R7). Log entry 9. -/
def Config.tpq1 : Config where
  hasVerify := true

/-- FREE VALUE (DESIGN CHOICE, log entry 7): what MAP[b][i] holds while nothing has written it since reset.
The spec leaves it unspecified (R22, R44, I5); nothing in the model says which value it is. -/
opaque Config.mapPowerOn : Dim → Nat → Entry

end Sys2Proof
end

