-- ==== Sys2Proof/Syntax.lean ====
section
/-! DEFINITION. The command set TPQ-1: one constructor per row of spec/opcode_table.json
(spec/30_encoding.md R69, R73). -/

namespace Sys2Proof

/-- A command of TPQ-1. MAPENTRY alone has an operand in its word; PIX and IMGDIM are implicit operands (R72). -/
inductive Instr where
  /-- NOP (R105). -/
  | nop
  /-- MAPBEGIN.D24 (R81). -/
  | mapbeginD24
  /-- MAPBEGIN.D48 (R81). -/
  | mapbeginD48
  /-- MAPBEGIN.D256 (R81). -/
  | mapbeginD256
  /-- MAPENTRY v (R82). -/
  | mapentry (v : Entry)
  /-- MAPEND (R83). -/
  | mapend
  /-- MAPVERIFY.D24 (R84). -/
  | mapverifyD24
  /-- MAPVERIFY.D48 (R84). -/
  | mapverifyD48
  /-- MAPVERIFY.D256 (R84). -/
  | mapverifyD256
  /-- QUANT.RGB565 (R94). -/
  | quantRgb565
  /-- QUANT.RGBA4444 (R95). -/
  | quantRgba4444
  /-- START.D24 (R97). -/
  | startD24
  /-- START.D48 (R97). -/
  | startD48
  /-- START.D256 (R97). -/
  | startD256
  /-- PUSH (R98). -/
  | push
  deriving DecidableEq, Repr

end Sys2Proof
end

