-- ==== Sys2Proof/WellFormed.lean ====
section
/-! DEFINITION. Which commands an implementation has (spec/30_encoding.md R73, R76). -/

namespace Sys2Proof

/-- A command exists in an implementation `c`. Every 16-bit MAPENTRY operand is legal (R72), so the only check is
that MAPVERIFY exists only if `HAS_VERIFY` (R73, R84). -/
def Instr.wellFormed (c : Config) : Instr → Bool
  | .mapverifyD24 => c.hasVerify
  | .mapverifyD48 => c.hasVerify
  | .mapverifyD256 => c.hasVerify
  | .nop => true
  | .mapbeginD24 => true
  | .mapbeginD48 => true
  | .mapbeginD256 => true
  | .mapentry _ => true
  | .mapend => true
  | .quantRgb565 => true
  | .quantRgba4444 => true
  | .startD24 => true
  | .startD48 => true
  | .startD256 => true
  | .push => true

end Sys2Proof
end

