-- ==== Sys2Proof/Decode.lean ====
section
/-! DEFINITION. The command word: its fields (spec/30_encoding.md R68), the decode of every 32-bit word (R74),
which rejects by name, and the encoder written from the same field table (R69, R70, R71, R73). -/

namespace Sys2Proof

/-! ### The codes of the encoding -/

/-- The DIM code of a dimension (R70); also the bank number b of MAP[b], LOADED[b] (R6). -/
def Dim.code : Dim → BitVec 2
  | .d24 => 0
  | .d48 => 1
  | .d256 => 2

/-- The dimension a DIM code names; 3 is reserved (R70). -/
def Dim.ofCode (x : BitVec 2) : Option Dim :=
  if x = 0 then some .d24
  else if x = 1 then some .d48
  else if x = 2 then some .d256
  else none

/-- The FMT code of a format (R71). -/
def Format.code : Format → BitVec 1
  | .rgb565 => 0
  | .rgba4444 => 1

/-- The format START pairs with a dimension: RGB565 for the icons, RGBA4444 for the banner (R6, R75). -/
def Dim.format : Dim → Format
  | .d24 => .rgb565
  | .d48 => .rgb565
  | .d256 => .rgba4444

/-! ### The fields of a word (R68) -/

/-- OP = c[31:28]. -/
def Word.op (c : Word) : BitVec 4 := c.extractLsb' 28 4

/-- DIM = c[27:26]. -/
def Word.dim (c : Word) : BitVec 2 := c.extractLsb' 26 2

/-- FMT = c[25]. -/
def Word.fmt (c : Word) : BitVec 1 := c.extractLsb' 25 1

/-- RZ = c[24:16]. -/
def Word.rz (c : Word) : BitVec 9 := c.extractLsb' 16 9

/-- IMM16 = c[15:0]. -/
def Word.imm (c : Word) : BitVec 16 := c.extractLsb' 0 16

/-! ### Decode (R74) -/

/-- Why a word is illegal: the sub-causes of IllegalCommand (R111). -/
inductive IllegalCause where
  /-- A reserved opcode, or MAPVERIFY without `HAS_VERIFY`. -/
  | reservedOp
  /-- A reserved or unused field is not zero. -/
  | reservedField
  /-- DIM = 3 in a command that uses DIM. -/
  | reservedDim
  /-- A START pairing that is not allowed (R75). -/
  | pairing
  deriving DecidableEq, Repr

/-- ERRSUB of an IllegalCommand (R111). -/
def IllegalCause.sub : IllegalCause → BitVec 4
  | .reservedOp => 0
  | .reservedField => 1
  | .reservedDim => 2
  | .pairing => 3

/-- The command a use of DIM names, once the fields the command does not use are seen to be zero. -/
def decodeDim (c : Word) (d24 d48 d256 : Instr) : Except IllegalCause Instr :=
  match Dim.ofCode (Word.dim c) with
  | some .d24 => .ok d24
  | some .d48 => .ok d48
  | some .d256 => .ok d256
  | none => .error .reservedDim

/-- The case table of R74, for a word whose OP is at most 7 and whose RZ is zero. -/
def decodeOp (c : Word) : Except IllegalCause Instr :=
  if Word.op c = 0 then
    if Word.dim c ≠ 0 ∨ Word.fmt c ≠ 0 ∨ Word.imm c ≠ 0 then .error .reservedField else .ok .nop
  else if Word.op c = 1 then
    if Word.fmt c ≠ 0 ∨ Word.imm c ≠ 0 then .error .reservedField
    else decodeDim c .mapbeginD24 .mapbeginD48 .mapbeginD256
  else if Word.op c = 2 then
    if Word.dim c ≠ 0 ∨ Word.fmt c ≠ 0 then .error .reservedField else .ok (.mapentry (Word.imm c))
  else if Word.op c = 3 then
    if Word.dim c ≠ 0 ∨ Word.fmt c ≠ 0 ∨ Word.imm c ≠ 0 then .error .reservedField else .ok .mapend
  else if Word.op c = 4 then
    if Word.fmt c ≠ 0 ∨ Word.imm c ≠ 0 then .error .reservedField
    else decodeDim c .mapverifyD24 .mapverifyD48 .mapverifyD256
  else if Word.op c = 5 then
    if Word.dim c ≠ 0 ∨ Word.imm c ≠ 0 then .error .reservedField
    else if Word.fmt c = 0 then .ok .quantRgb565 else .ok .quantRgba4444
  else if Word.op c = 6 then
    if Word.imm c ≠ 0 then .error .reservedField
    else if Word.dim c = 0 ∧ Word.fmt c = 0 then .ok .startD24
    else if Word.dim c = 1 ∧ Word.fmt c = 0 then .ok .startD48
    else if Word.dim c = 2 ∧ Word.fmt c = 1 then .ok .startD256
    else .error .pairing
  else
    if Word.dim c ≠ 0 ∨ Word.fmt c ≠ 0 ∨ Word.imm c ≠ 0 then .error .reservedField else .ok .push

/-- The decode of a command word, checks in the order of R74: reserved opcode (R76), DIM = 3 where DIM is used,
RZ, then the command's own unused fields and START's pairing. Total: every word names a command or a sub-cause. -/
def decode (hasVerify : Bool) (c : Word) : Except IllegalCause Instr :=
  if 8#4 ≤ Word.op c then .error .reservedOp
  else if Word.op c = 4 ∧ hasVerify = false then .error .reservedOp
  else if (Word.op c = 1 ∨ Word.op c = 4 ∨ Word.op c = 6) ∧ Word.dim c = 3 then .error .reservedDim
  else if Word.rz c ≠ 0 then .error .reservedField
  else decodeOp c

/-! ### Encode (R68, R69, R73) -/

/-- A word of format C from its fields, RZ zero (R68, R73). -/
def wordOf (op : BitVec 4) (dim : BitVec 2) (fmt : BitVec 1) (imm : BitVec 16) : Word :=
  op ++ dim ++ fmt ++ 0#9 ++ imm

/-- The word of a command (R73): a field the command does not use is zero. -/
def encode : Instr → Word
  | .nop => wordOf 0 0 0 0
  | .mapbeginD24 => wordOf 1 Dim.d24.code 0 0
  | .mapbeginD48 => wordOf 1 Dim.d48.code 0 0
  | .mapbeginD256 => wordOf 1 Dim.d256.code 0 0
  | .mapentry v => wordOf 2 0 0 v
  | .mapend => wordOf 3 0 0 0
  | .mapverifyD24 => wordOf 4 Dim.d24.code 0 0
  | .mapverifyD48 => wordOf 4 Dim.d48.code 0 0
  | .mapverifyD256 => wordOf 4 Dim.d256.code 0 0
  | .quantRgb565 => wordOf 5 0 Format.rgb565.code 0
  | .quantRgba4444 => wordOf 5 0 Format.rgba4444.code 0
  | .startD24 => wordOf 6 Dim.d24.code Dim.d24.format.code 0
  | .startD48 => wordOf 6 Dim.d48.code Dim.d48.format.code 0
  | .startD256 => wordOf 6 Dim.d256.code Dim.d256.format.code 0
  | .push => wordOf 7 0 0 0

/-! ### The opcode table's numbering -/

/-- The command word among the low `nbits` bits of `w`. A command is one word (R67, R78), so the table's numbering of
bits is the word's own (R8). -/
def tableWord (nbits w : Nat) : Word := BitVec.ofNat 32 (w % 2 ^ nbits)

/-- What the decoder reads from the table's bits, with `HAS_VERIFY` at the spec's default (R7). -/
def decodeTableWord (nbits w : Nat) : Option Instr :=
  match decode Config.tpq1.hasVerify (tableWord nbits w) with
  | .ok i => some i
  | .error _ => none

end Sys2Proof
end

