-- ==== Sys2Proof/Machine/State.lean ====
section
/-! DEFINITION. The state of one TPQ instance (spec/10_state.md R17 to R47), the host transactions that drive it
(spec/20_memory.md R48 to R55), the reasons a step can stop, and the state after reset (R44). -/

namespace Sys2Proof.Machine

open Sys2Proof

/-! ### The values the state holds -/

/-- STATE, the sequencer state (R20). Its codes 3 to 6 are never produced, so the type has no value for them
(log entry 15). -/
inductive Seq where
  /-- 0: no load or encode in progress. -/
  | idle
  /-- 1: a table load was begun and not yet ended. -/
  | loading
  /-- 2: an encode was begun and fewer than N(ADIM) pixels were pushed. -/
  | encoding
  /-- 7: an error was raised; sticky until reset. -/
  | error
  deriving DecidableEq, Repr

/-- ERR, the code of the first error since reset (R28, R108). Its codes 7 to 15 are never produced (I15). -/
inductive ErrCode where
  /-- 0: no error since reset. -/
  | none
  /-- 1: the image is not the required size (R109). -/
  | dimensionError
  /-- 2: the table is missing, truncated, too long or not loaded (R110). -/
  | resourceError
  /-- 3: the word is no command (R74). -/
  | illegalCommand
  /-- 4: the command is not accepted in this STATE (R107). -/
  | sequenceError
  /-- 5: the bank is already loaded (R81). -/
  | mapImmutable
  /-- 6: a table entry is at least N (R104). -/
  | destOutOfRange
  deriving DecidableEq, Repr

/-- One value for each of the three banks (R22, R23). -/
structure Banks (α : Type) where
  /-- Bank 0, D24. -/
  d24 : α
  /-- Bank 1, D48. -/
  d48 : α
  /-- Bank 2, D256. -/
  d256 : α
  deriving DecidableEq, Repr

/-- A sparse memory: address and value pairs. Its canonical form (`Memory.wf`, Machine/Ops.lean) has strictly rising
addresses; an address it does not list holds no value that anything has written. -/
abbrev Memory (α : Type) := List (Nat × α)

/-- A set of marked addresses, as a sparse memory: the written marks WR (R26). An unlisted mark is 0. -/
abbrev Marks := Memory Unit

/-- The width of a host access (R50, R51, R53). -/
inductive Width where
  /-- 8 bits. -/
  | w8
  /-- 16 bits. -/
  | w16
  /-- 32 bits. -/
  | w32
  /-- Any width above 32 bits; always a bus error (R53). -/
  | wider
  deriving DecidableEq, Repr

/-- What the outside world can do to the instance: a host bus transaction at an offset inside the block (R49), or the
platform's reset (R129), which it may apply between any two transactions (I21). -/
inductive HostTxn where
  /-- A host read. -/
  | read (a : Offset) (w : Width)
  /-- A host write; only a 32-bit write can have an effect (R50, R54). -/
  | write (a : Offset) (w : Width) (v : Word)
  /-- The platform asserts reset. -/
  | reset
  deriving DecidableEq, Repr

/-- The host-side faults (R14, R53, R57, R58). No command raises one: a command's errors are block errors, which are
next states (R112). A fault changes no state of the block, and a later access is not affected (R128). -/
inductive Fault where
  /-- Raised by a host access of the wrong width or alignment (R53). Safe: the spec gives no value and no effect. -/
  | busError
  /-- Raised by an OUT window read with BVALID = 0 (R57). Safe: the hardware's value is unspecified and the spec has a
  model fault. -/
  | blobNotReady
  /-- Raised by an OUT window read that covers the unreadable byte `o` (R58). Safe, for the same reason. -/
  | unwrittenRead (o : Nat)
  deriving DecidableEq, Repr

/-- The refusals. Every command has its meaning, so no step of this model answers one. -/
inductive Refusal where
  /-- Raised by an arm of `exec` whose instruction has no meaning yet; no arm is left so. Safe. -/
  | notModelled (mnemonic : String)
  deriving DecidableEq, Repr

/-! ### The state -/

/-- The state of one instance (R17), and the model's own two fields for the host's side of the bus. -/
structure State where
  /-- STATE (R20). -/
  seq : Seq
  /-- BVALID: a complete blob is in OUT (R27). -/
  bvalid : Bool
  /-- ERR (R28). -/
  err : ErrCode
  /-- ERRSUB (R28). -/
  errsub : BitVec 4
  /-- ERRINFO (R28, R38). -/
  errinfo : Word
  /-- LOADED[b] (R23). -/
  loaded : Banks Bool
  /-- MAP[b] (R22): the entries written since reset, by index. -/
  map : Banks (Memory Entry)
  /-- LBANK: the bank of the last MAPBEGIN that succeeded (R24). -/
  lbank : Dim
  /-- LCNT: the entries received by the current or last load (R24). -/
  lcnt : BitVec 16
  /-- ADIM: the dimension of the last START that succeeded (R25). -/
  adim : Dim
  /-- AFMT: its format (R25). -/
  afmt : Format
  /-- IDX: the source index of the next PUSH (R19, R25). -/
  idx : BitVec 16
  /-- OUT: the bytes written since reset, by blob offset (R26). -/
  out : List Host.Cell
  /-- WR: the offsets the current encode has written (R26). -/
  wr : Marks
  /-- VDONE: a MAPVERIFY has completed since reset (R29). -/
  vdone : Bool
  /-- VOK: that MAPVERIFY found a bijection (R29). -/
  vok : Bool
  /-- VBANK: the bank it checked (R29). -/
  vbank : Dim
  /-- PIX: the pixel operand (R32). -/
  pix : Word
  /-- IMGDIM: the image size operand (R33). -/
  imgdim : Word
  /-- QOUT's bits 15:0 (R34). -/
  qout : QPixel
  /-- The MODEL's own: the transactions not yet served, oldest first (R63; log entry 1). -/
  inbox : List HostTxn
  /-- The MODEL's own: the value the last transaction returned to the host (log entry 2). -/
  reply : Option Word
  deriving DecidableEq, Repr

/-- The instance right after reset (R44, R130). MAP and OUT are unspecified there: nothing is listed (log entries 7
and 8). The two fields of the model's own are empty (log entries 1 and 2). -/
def State.reset : State where
  seq := .idle
  bvalid := false
  err := .none
  errsub := 0
  errinfo := 0
  loaded := ⟨false, false, false⟩
  map := ⟨[], [], []⟩
  lbank := .d24
  lcnt := 0
  adim := .d24
  afmt := .rgb565
  idx := 0
  out := []
  wr := []
  vdone := false
  vok := false
  vbank := .d24
  pix := 0
  imgdim := 0
  qout := 0
  inbox := []
  reply := none

end Sys2Proof.Machine
end

