-- ==== Sys2Proof/Machine/Operands.lean ====
section
/-! DEFINITION. The operand forms of TPQ-1: the table of the dimensions (spec/00_scope.md R6), the fields of IMGDIM and
PIX (spec/10_state.md R32, R33), the pixel quantizer (spec/41_quantize.md R87 to R93) and the source index
(spec/00_scope.md R11, spec/42_encode.md R101). -/

namespace Sys2Proof

/-! ### The dimensions (R6) -/

/-- W(b) in pixels. -/
def Dim.width : Dim → Nat
  | .d24 => 24
  | .d48 => 48
  | .d256 => 256

/-- H(b) in pixels. -/
def Dim.height : Dim → Nat
  | .d24 => 24
  | .d48 => 48
  | .d256 => 128

/-- N(b) = W(b) × H(b), the length of the table. -/
def Dim.entries (b : Dim) : Nat := b.width * b.height

/-- 2N(b), the length of the blob in bytes. -/
def Dim.blobBytes (b : Dim) : Nat := 2 * b.entries

/-- A bank number as a 4-bit ERRSUB (R111). -/
def Dim.sub (b : Dim) : BitVec 4 := b.code.setWidth 4

/-- `zext_16(b)`, as ERRINFO.XIDX of ResourceError 3 (R84, R97). -/
def Dim.info (b : Dim) : BitVec 16 := b.code.setWidth 16

/-! ### Row-major order (R11, R101) -/

/-- The source index of the pixel at a row and a column: x = row × W + column. -/
def Dim.sourceIndex (b : Dim) (row col : Nat) : Nat := row * b.width + col

/-- The row of source pixel k: ⌊k / W⌋. -/
def Dim.sourceRow (b : Dim) (k : Nat) : Nat := k / b.width

/-- The column of source pixel k: k mod W. -/
def Dim.sourceCol (b : Dim) (k : Nat) : Nat := k % b.width

namespace Machine

/-! ### IMGDIM (R33) -/

/-- IMGDIM.W = IMGDIM[31:16]. -/
def imageWidth (v : Word) : BitVec 16 := v.extractLsb' 16 16

/-- IMGDIM.H = IMGDIM[15:0]. -/
def imageHeight (v : Word) : BitVec 16 := v.extractLsb' 0 16

/-- IMGDIM as the host builds it: (w << 16) | h (R80). -/
def imageSize (w h : BitVec 16) : Word := w ++ h

/-- The precondition of START b on IMGDIM (R97, R109). -/
def sizeMatches (b : Dim) (v : Word) : Bool :=
  (imageWidth v).toNat = b.width && (imageHeight v).toNat = b.height

/-! ### The channel extractor (R32, R87) -/

/-- R = p[31:24]. -/
def chanR (p : Word) : Byte := p.extractLsb' 24 8

/-- G = p[23:16]. -/
def chanG (p : Word) : Byte := p.extractLsb' 16 8

/-- B = p[15:8]. -/
def chanB (p : Word) : Byte := p.extractLsb' 8 8

/-- A = p[7:0]. -/
def chanA (p : Word) : Byte := p.extractLsb' 0 8

/-! ### The bit-packer, over the reduced channels as 8-bit values (R88 to R91) -/

/-- Byte0 of RGB565: ((g6 & 7) << 5) | b5, with g6 = G >> 2 and b5 = B >> 3 (R88, R90). -/
def byte0Rgb565 (p : Word) : Byte := (((chanG p >>> 2) &&& 7#8) <<< 5) ||| (chanB p >>> 3)

/-- Byte1 of RGB565: (r5 << 3) | (g6 >> 3), with r5 = R >> 3 and g6 = G >> 2 (R88, R90). -/
def byte1Rgb565 (p : Word) : Byte := ((chanR p >>> 3) <<< 3) ||| ((chanG p >>> 2) >>> 3)

/-- Byte0 of RGBA4444: (b4 << 4) | a4 (R89, R91). -/
def byte0Rgba4444 (p : Word) : Byte := ((chanB p >>> 4) <<< 4) ||| (chanA p >>> 4)

/-- Byte1 of RGBA4444: (r4 << 4) | g4 (R89, R91). -/
def byte1Rgba4444 (p : Word) : Byte := ((chanR p >>> 4) <<< 4) ||| (chanG p >>> 4)

/-- The quantized pixel as the word Byte1:Byte0: Q565 (R92) and Q4444 (R93). -/
def quantize : Format → Word → QPixel
  | .rgb565, p => byte1Rgb565 p ++ byte0Rgb565 p
  | .rgba4444, p => byte1Rgba4444 p ++ byte0Rgba4444 p

/-! ### The demultiplexer (R99) -/

/-- The byte address of Byte0 of destination pixel d. -/
def destByte0 (d : Entry) : Nat := 2 * d.toNat

/-- The byte address of Byte1 of destination pixel d. -/
def destByte1 (d : Entry) : Nat := 2 * d.toNat + 1

/-- Byte0 of a quantized pixel: q[7:0]. -/
def qByte0 (q : QPixel) : Byte := q.extractLsb' 0 8

/-- Byte1 of a quantized pixel: q[15:8]. -/
def qByte1 (q : QPixel) : Byte := q.extractLsb' 8 8

end Machine

end Sys2Proof
end

