-- ==== Sys2Proof/Machine/Flags.lean ====
section
/-! DEFINITION. The codes of STATE and ERR (spec/10_state.md R20, spec/60_exceptions.md R108), the word STATUS reads
(spec/10_state.md R35) and the report of an error in the document's names (spec/60_exceptions.md R119). TPQ has no
arithmetic condition codes (R41). -/

namespace Sys2Proof.Machine

open Sys2Proof

/-- The value of STATE (R20). -/
def Seq.code : Seq → BitVec 3
  | .idle => 0
  | .loading => 1
  | .encoding => 2
  | .error => 7

/-- The value of ERR (R108). -/
def ErrCode.code : ErrCode → BitVec 4
  | .none => 0
  | .dimensionError => 1
  | .resourceError => 2
  | .illegalCommand => 3
  | .sequenceError => 4
  | .mapImmutable => 5
  | .destOutOfRange => 6

/-- A flag as one bit of a register. -/
def bit (b : Bool) : BitVec 1 := BitVec.ofBool b

/-- What a read of STATUS returns (R35), its fields from bit 31 down; bits 31:26, 19 and 15 read 0 (R39). -/
def State.status (s : State) : Word :=
  0#6 ++ s.vbank.code ++ bit s.vok ++ bit s.vdone ++ s.lbank.code ++ 0#1 ++ s.afmt.code ++ s.adim.code ++ 0#1
    ++ bit s.loaded.d256 ++ bit s.loaded.d48 ++ bit s.loaded.d24 ++ s.errsub ++ s.err.code ++ bit s.bvalid ++ s.seq.code

/-- How a host reports an error in the document's abstract result codes (R119). -/
inductive Report where
  /-- No error to report. R119 has no row for ERR 0: DESIGN CHOICE (log entry 19). It is not the document's `success`: a
  load or an encode not finished has ERR 0 too (R139), and when a run has ended well is `State.succeeded` (R16). -/
  | noError
  /-- The document's `DimensionError`. -/
  | dimensionError
  /-- The document's `ResourceError`. -/
  | resourceError
  /-- A fault of the host's own command sequence; the document has no name for it. -/
  | internalFailure
  deriving DecidableEq, Repr

/-- The mapping of R119, which gives ERR 1 to 6. That ERR 0 gives `noError`, whatever STATE and BVALID are, is a DESIGN
CHOICE (log entry 19). -/
def ErrCode.report : ErrCode → Report
  | .none => .noError
  | .dimensionError => .dimensionError
  | .resourceError => .resourceError
  | .destOutOfRange => .resourceError
  | .illegalCommand => .internalFailure
  | .sequenceError => .internalFailure
  | .mapImmutable => .internalFailure

end Sys2Proof.Machine
end

