-- ==== Sys2Proof/Machine/Ops.lean ====
section
/-! DEFINITION. The named operations over the memories and registers, error entry (spec/60_exceptions.md R112), and
reset, which is the only way out of it (spec/70_reset_and_hazards.md R129). -/

namespace Sys2Proof.Machine

open Sys2Proof

/-! ### Sparse memories -/

/-- The canonical form: addresses strictly rising. An unlisted address has no value, so no entry can equal what an
unlisted address reads as (log entry 8). -/
def Memory.wf {α : Type} : Memory α → Bool
  | [] => true
  | [_] => true
  | (k, _) :: (l, w) :: m => decide (k < l) && Memory.wf ((l, w) :: m)

/-- The value at an address, if anything has written it. -/
def cellRead {α : Type} : Memory α → Nat → Option α
  | [], _ => none
  | (k, w) :: m, a => if a = k then some w else cellRead m a

/-- Write one address, keeping the addresses rising. -/
def cellWrite {α : Type} : Memory α → Nat → α → Memory α
  | [], a, v => [(a, v)]
  | (k, w) :: m, a, v =>
    if a < k then (a, v) :: (k, w) :: m
    else if a = k then (a, v) :: m
    else (k, w) :: cellWrite m a v

/-! ### The banks -/

/-- The value of bank b. -/
def Banks.get {α : Type} (x : Banks α) : Dim → α
  | .d24 => x.d24
  | .d48 => x.d48
  | .d256 => x.d256

/-- The banks with bank b replaced. -/
def Banks.set {α : Type} (x : Banks α) (b : Dim) (v : α) : Banks α :=
  match b with
  | .d24 => ⟨v, x.d48, x.d256⟩
  | .d48 => ⟨x.d24, v, x.d256⟩
  | .d256 => ⟨x.d24, x.d48, v⟩

/-- MAP[b][i] (R9). An entry nothing has written since reset is the free value (R22, I5; log entry 7). -/
def State.mapEntry (s : State) (b : Dim) (i : Nat) : Entry :=
  (cellRead (s.map.get b) i).getD (Config.mapPowerOn b i)

/-- OUT[o], if anything has written it since reset (R26, I6; log entry 8). -/
def State.outByte (s : State) (o : Nat) : Option Byte := cellRead s.out o

/-- WR[o] (R26). -/
def State.marked (s : State) (o : Nat) : Bool := (cellRead s.wr o).isSome

/-! ### Error entry and the ERROR gate -/

/-- An ERRINFO value, DEST in the upper half and XIDX in the lower (R38, R113). -/
def errInfo (dest xidx : BitVec 16) : Word := dest ++ xidx

/-- The ERRINFO of IllegalCommand, SequenceError and MapImmutable: c[31:16] : 0x0000 (R74, R113). -/
def commandInfo (c : Word) : Word := errInfo (c.extractLsb' 16 16) 0

/-- `raise Error(code, sub, info)`: error entry (R112). There is no program counter, vector, mode or stack to save or
switch (R116), and everything else keeps its value. -/
def State.raiseError (s : State) (code : ErrCode) (sub : BitVec 4) (info : Word) : State :=
  { s with err := code, errsub := sub, errinfo := info, seq := .error, bvalid := false }

/-- SequenceError of a command in a STATE that does not accept it: ERRSUB is STATE (R107, R111, R113). -/
def State.sequenceError (s : State) (i : Instr) : State :=
  s.raiseError .sequenceError (s.seq.code.setWidth 4) (commandInfo (encode i))

/-- The ERROR gate: in ERROR a command is discarded and changes nothing (R106). -/
def State.command (s : State) (effect : State → State) : Host.Outcome State Fault Refusal :=
  .next (if s.seq = .error then s else effect s)

/-- The platform asserts reset: every piece of instance state takes its reset value (R129, R44). What the host has yet
to send is not the instance's and stays (log entry 12). -/
def State.applyReset (s : State) : State := { State.reset with inbox := s.inbox }

/-! ### The updates the commands make -/

/-- MAPBEGIN b, past its checks (R81). -/
def State.beginLoad (s : State) (b : Dim) : State :=
  { s with lbank := b, lcnt := 0, seq := .loading }

/-- MAPENTRY v, past its checks: MAP[LBANK][LCNT] <- v; LCNT <- LCNT + 1 (R82). -/
def State.appendEntry (s : State) (v : Entry) : State :=
  { s with map := s.map.set s.lbank (cellWrite (s.map.get s.lbank) s.lcnt.toNat v), lcnt := s.lcnt + 1 }

/-- MAPEND, past its checks (R83). -/
def State.endLoad (s : State) : State :=
  { s with loaded := s.loaded.set s.lbank true, seq := .idle }

/-- MAPVERIFY b, past its checks, with its result (R84). -/
def State.recordVerify (s : State) (b : Dim) (ok : Bool) : State :=
  { s with vdone := true, vok := ok, vbank := b }

/-- QOUT <- zext_32(q) (R94, R95). -/
def State.setQout (s : State) (q : QPixel) : State := { s with qout := q }

/-- START b in format f, past its checks: every WR[o] becomes 0 and the bytes OUT[o] are not changed (R97). -/
def State.beginEncode (s : State) (b : Dim) (f : Format) : State :=
  { s with adim := b, afmt := f, idx := 0, bvalid := false, wr := [], seq := .encoding }

/-- PUSH's writes for one pixel, past its checks: the two bytes, their marks, QOUT and IDX (R98, R99). -/
def State.putPixel (s : State) (d : Entry) (q : QPixel) : State :=
  { s with
    out := cellWrite (cellWrite s.out (destByte0 d) (qByte0 q)) (destByte1 d) (qByte1 q)
    wr := cellWrite (cellWrite s.wr (destByte0 d) ()) (destByte1 d) ()
    qout := q
    idx := s.idx + 1 }

/-- Completion of an encode (R100). -/
def State.finishEncode (s : State) : State := { s with seq := .idle, bvalid := true }

/-! ### The updates the host makes -/

/-- A host write of PIX (R32). -/
def State.setPix (s : State) (v : Word) : State := { s with pix := v }

/-- A host write of IMGDIM (R33). -/
def State.setImgdim (s : State) (v : Word) : State := { s with imgdim := v }

/-- What the last transaction returned to the host (log entry 2). -/
def State.setReply (s : State) (r : Option Word) : State := { s with reply := r }

/-- The transactions left to serve (log entry 1). -/
def State.setInbox (s : State) (ts : List HostTxn) : State := { s with inbox := ts }

end Sys2Proof.Machine
end

