-- ==== Sys2Proof/Machine/Control.lean ====
section
/-! DEFINITION. Control commands (spec/43_control.md R105). -/

namespace Sys2Proof.Machine

open Sys2Proof

/-- NOP: no state changes, in any STATE (R105). -/
def execNop (s : State) : Host.Outcome State Fault Refusal := s.command (fun t => t)

end Sys2Proof.Machine
end

