-- ==== Sys2Proof/Machine/Encode.lean ====
section
/-! DEFINITION. Encode: START and PUSH (spec/42_encode.md R97 to R104). -/

namespace Sys2Proof.Machine

open Sys2Proof

/-! ### START (R97) -/

/-- The DimensionError sub-cause: 0 for an icon, 1 for the banner (R109). -/
def sizeSub : Dim → BitVec 4
  | .d24 => 0
  | .d48 => 0
  | .d256 => 1

/-- Begin an encode of dimension b in the format START pairs with it (R75): the size check before the loaded check
(R114). -/
def startEncode (i : Instr) (b : Dim) (s : State) : State :=
  if s.seq ≠ .idle then s.sequenceError i
  else if sizeMatches b s.imgdim = false then s.raiseError .dimensionError (sizeSub b) s.imgdim
  else if s.loaded.get b = false then s.raiseError .resourceError 3 (errInfo 0 b.info)
  else s.beginEncode b b.format

/-- START.D24. -/
def execStartD24 (s : State) : Host.Outcome State Fault Refusal := s.command (startEncode .startD24 .d24)

/-- START.D48. -/
def execStartD48 (s : State) : Host.Outcome State Fault Refusal := s.command (startEncode .startD48 .d48)

/-- START.D256. -/
def execStartD256 (s : State) : Host.Outcome State Fault Refusal := s.command (startEncode .startD256 .d256)

/-! ### PUSH (R98) -/

/-- The destination of the next PUSH: d = MAP[ADIM][IDX]. -/
def State.nextDest (s : State) : Entry := s.mapEntry s.adim s.idx.toNat

/-- PIX quantized in the encode's format. -/
def State.nextPixel (s : State) : QPixel := quantize s.afmt s.pix

/-- Permute, quantize and write one source pixel; the pixel of index N(ADIM) − 1 ends the encode (R100), and an entry
that is no destination raises DestOutOfRange and writes nothing of the pixel (R104). -/
def pushPixel (s : State) : State :=
  if s.seq ≠ .encoding then s.sequenceError .push
  else if s.adim.entries ≤ s.nextDest.toNat then s.raiseError .destOutOfRange s.adim.sub (errInfo s.nextDest s.idx)
  else if s.idx.toNat + 1 = s.adim.entries then (s.putPixel s.nextDest s.nextPixel).finishEncode
  else s.putPixel s.nextDest s.nextPixel

/-- PUSH. -/
def execPush (s : State) : Host.Outcome State Fault Refusal := s.command pushPixel

end Sys2Proof.Machine
end

