-- ==== Sys2Proof/Machine/MapLoad.lean ====
section
/-! DEFINITION. Lookup-table load and verification (spec/40_map_load.md R81 to R86). Checks come in the order written,
the STATE check first (R10, R114). -/

namespace Sys2Proof.Machine

open Sys2Proof

/-! ### MAPBEGIN (R81) -/

/-- Begin loading bank b; `i` is the command, for ERRINFO. -/
def mapBegin (i : Instr) (b : Dim) (s : State) : State :=
  if s.seq ≠ .idle then s.sequenceError i
  else if s.loaded.get b then s.raiseError .mapImmutable b.sub (commandInfo (encode i))
  else s.beginLoad b

/-- MAPBEGIN.D24. -/
def execMapbeginD24 (s : State) : Host.Outcome State Fault Refusal := s.command (mapBegin .mapbeginD24 .d24)

/-- MAPBEGIN.D48. -/
def execMapbeginD48 (s : State) : Host.Outcome State Fault Refusal := s.command (mapBegin .mapbeginD48 .d48)

/-- MAPBEGIN.D256. -/
def execMapbeginD256 (s : State) : Host.Outcome State Fault Refusal := s.command (mapBegin .mapbeginD256 .d256)

/-! ### MAPENTRY (R82) -/

/-- Append one entry to the bank being loaded; every value is stored unchecked (R85). -/
def mapAppend (v : Entry) (s : State) : State :=
  if s.seq ≠ .loading then s.sequenceError (.mapentry v)
  else if s.lcnt.toNat = s.lbank.entries then s.raiseError .resourceError 2 (errInfo v s.lcnt)
  else s.appendEntry v

/-- MAPENTRY v. -/
def execMapentry (v : Entry) (s : State) : Host.Outcome State Fault Refusal := s.command (mapAppend v)

/-! ### MAPEND (R83) -/

/-- End the load and check its length: missing, then truncated. -/
def mapEnd (s : State) : State :=
  if s.seq ≠ .loading then s.sequenceError .mapend
  else if s.lcnt.toNat ≠ s.lbank.entries then
    if s.lcnt = 0 then s.raiseError .resourceError 0 (errInfo 0 s.lcnt)
    else s.raiseError .resourceError 1 (errInfo 0 s.lcnt)
  else s.endLoad

/-- MAPEND. -/
def execMapend (s : State) : Host.Outcome State Fault Refusal := s.command mapEnd

/-! ### MAPVERIFY (R84) -/

/-- The entries MAP[b][0 .. N(b)−1] in index order. -/
def State.table (s : State) (b : Dim) : List Nat :=
  (List.range b.entries).map (fun i => (s.mapEntry b i).toNat)

/-- No value stands in the list twice. -/
def distinct : List Nat → Bool
  | [] => true
  | v :: vs => !vs.contains v && distinct vs

/-- R84's `ok`: every entry below N(b), and no two entries equal. -/
def State.tableIsBijection (s : State) (b : Dim) : Bool :=
  (s.table b).all (fun v => decide (v < b.entries)) && distinct (s.table b)

/-- Check that bank b is a bijection; a table that is not raises no error. Whether the command is present
(`HAS_VERIFY`) is the decode's check (R74, log entry 9). -/
def mapVerify (i : Instr) (b : Dim) (s : State) : State :=
  if s.seq ≠ .idle then s.sequenceError i
  else if s.loaded.get b = false then s.raiseError .resourceError 3 (errInfo 0 b.info)
  else s.recordVerify b (s.tableIsBijection b)

/-- MAPVERIFY.D24. -/
def execMapverifyD24 (s : State) : Host.Outcome State Fault Refusal := s.command (mapVerify .mapverifyD24 .d24)

/-- MAPVERIFY.D48. -/
def execMapverifyD48 (s : State) : Host.Outcome State Fault Refusal := s.command (mapVerify .mapverifyD48 .d48)

/-- MAPVERIFY.D256. -/
def execMapverifyD256 (s : State) : Host.Outcome State Fault Refusal := s.command (mapVerify .mapverifyD256 .d256)

end Sys2Proof.Machine
end

