-- ==== Sys2Proof/Machine/Quantize.lean ====
section
/-! DEFINITION. The pixel quantizer's commands (spec/41_quantize.md R94, R95): legal in IDLE, LOADING and ENCODING, and
they write QOUT only. -/

namespace Sys2Proof.Machine

open Sys2Proof

/-- QOUT <- Qf(PIX). -/
def quantPixel (f : Format) (s : State) : State := s.setQout (quantize f s.pix)

/-- QUANT.RGB565. -/
def execQuantRgb565 (s : State) : Host.Outcome State Fault Refusal := s.command (quantPixel .rgb565)

/-- QUANT.RGBA4444. -/
def execQuantRgba4444 (s : State) : Host.Outcome State Fault Refusal := s.command (quantPixel .rgba4444)

end Sys2Proof.Machine
end

