-- ==== Sys2Proof/Machine/Dispatch.lean ====
section
/-! DEFINITION. One arm per command of the opcode table, each one call of its meaning. -/

namespace Sys2Proof.Machine

open Sys2Proof

def exec (i : Instr) (s : State) : Host.Outcome State Fault Refusal :=
  match i with
  | .nop => Sys2Proof.Machine.execNop s
  | .mapbeginD24 => Sys2Proof.Machine.execMapbeginD24 s
  | .mapbeginD48 => Sys2Proof.Machine.execMapbeginD48 s
  | .mapbeginD256 => Sys2Proof.Machine.execMapbeginD256 s
  | .mapentry v => Sys2Proof.Machine.execMapentry v s
  | .mapend => Sys2Proof.Machine.execMapend s
  | .mapverifyD24 => Sys2Proof.Machine.execMapverifyD24 s
  | .mapverifyD48 => Sys2Proof.Machine.execMapverifyD48 s
  | .mapverifyD256 => Sys2Proof.Machine.execMapverifyD256 s
  | .quantRgb565 => Sys2Proof.Machine.execQuantRgb565 s
  | .quantRgba4444 => Sys2Proof.Machine.execQuantRgba4444 s
  | .startD24 => Sys2Proof.Machine.execStartD24 s
  | .startD48 => Sys2Proof.Machine.execStartD48 s
  | .startD256 => Sys2Proof.Machine.execStartD256 s
  | .push => Sys2Proof.Machine.execPush s

end Sys2Proof.Machine
end

