-- ==== Sys2Proof/Machine/Bus.lean ====
section
/-! DEFINITION. The host bus (spec/20_memory.md R48 to R60; spec/10_state.md R30 to R40): address decode, register and
window reads, writes, the execution of a CMD write (spec/30_encoding.md R74), and one transaction as one step. -/

namespace Sys2Proof.Machine

open Sys2Proof

/-! ### Widths, offsets and bus errors -/

/-- The bytes of an access; any number above 4 stands for a width above 32 bits (R53, log entry 4). -/
def Width.bytes : Width → Nat
  | .w8 => 1
  | .w16 => 2
  | .w32 => 4
  | .wider => 8

/-- Offsets 0x10000 to 0x1FFFF are the OUT window, the others the register space (R49). -/
def inWindow (a : Offset) : Bool := decide (65536 ≤ a.toNat)

/-- The blob byte o of a window offset, o = a − 0x10000 (R49). -/
def windowByte (a : Offset) : Nat := a.toNat - 65536

/-- An access is no bus error (R50, R51, R53): at most 32 bits, aligned to its width, and 32 bits wide in the register
space. Window writes are held to the same alignment as window reads (DEDUCED, log entries 4 and 5). -/
def legalAccess (a : Offset) (w : Width) : Bool :=
  w != .wider && a.toNat % w.bytes == 0 && (inWindow a || w == .w32)

/-! ### Reads -/

/-- ID, the constant that identifies TPQ-1 (R37). -/
def idWord : Word := 0x54505131

/-- A 32-bit read of the register space (R30): CMD and the reserved offsets read 0 (R31, R39). -/
def readRegister (a : Offset) (s : State) : Word :=
  if a = 0x04 then s.pix
  else if a = 0x08 then s.imgdim
  else if a = 0x0C then s.qout.setWidth 32
  else if a = 0x10 then s.status
  else if a = 0x14 then s.idx.setWidth 32
  else if a = 0x18 then s.lcnt.setWidth 32
  else if a = 0x1C then s.errinfo
  else if a = 0x20 then idWord
  else 0

/-- The byte a window read may return: inside the current blob, written by the current encode (R56). -/
def State.admittedByte (s : State) (o : Nat) : Option Byte :=
  if o < s.adim.blobBytes ∧ s.marked o = true then s.outByte o else none

/-- The n bytes from o, or the fault that names the lowest unreadable one (R58; log entry 6). -/
def State.windowBytes (s : State) (o : Nat) : Nat → Except Fault (List Byte)
  | 0 => .ok []
  | n + 1 =>
    match s.admittedByte o with
    | none => .error (.unwrittenRead o)
    | some b =>
      match s.windowBytes (o + 1) n with
      | .ok bs => .ok (b :: bs)
      | .error f => .error f

/-- `MemRead`'s assembly of bytes, the first least significant (R9, R51, R55). -/
def bytesLE : List Byte → Word
  | [] => 0
  | b :: bs => b.setWidth 32 ||| (bytesLE bs <<< 8)

/-- An aligned read of n bytes of the OUT window (R51, R56 to R58). -/
def readWindow (o n : Nat) (s : State) : Except Fault Word :=
  if s.bvalid = false then .error .blobNotReady
  else
    match s.windowBytes o n with
    | .ok bs => .ok (bytesLE bs)
    | .error f => .error f

/-- A host read (R49 to R51, R53): it has no effect on the block (R60). -/
def hostRead (a : Offset) (w : Width) (s : State) : Except Fault Word :=
  if legalAccess a w = false then .error .busError
  else if inWindow a then readWindow (windowByte a) w.bytes s
  else .ok (readRegister a s)

/-! ### Writes -/

/-- A write of the word c to CMD (R31): the ERROR gate, then the decode, then the command or IllegalCommand (R74, R76,
R106). -/
def writeCmd (cfg : Config) (c : Word) (s : State) : Host.Outcome State Fault Refusal :=
  if s.seq = .error then .next s
  else
    match decode cfg.hasVerify c with
    | .ok i => exec i s
    | .error e => .next (s.raiseError .illegalCommand e.sub (commandInfo c))

/-- A 32-bit write of the register space (R30): only CMD, PIX and IMGDIM take one; read-only registers and reserved
offsets ignore it (R39, R54). PIX and IMGDIM take it in every STATE (R32, R33, R45). -/
def writeRegister (cfg : Config) (a : Offset) (v : Word) (s : State) : Host.Outcome State Fault Refusal :=
  if a = 0x00 then writeCmd cfg v s
  else if a = 0x04 then .next (s.setPix v)
  else if a = 0x08 then .next (s.setImgdim v)
  else .next s

/-- A host write (R49, R50, R53, R54): the OUT window ignores it. -/
def hostWrite (cfg : Config) (a : Offset) (w : Width) (v : Word) (s : State) : Host.Outcome State Fault Refusal :=
  if legalAccess a w = false then .fault .busError
  else if inWindow a then .next s
  else writeRegister cfg a v s

/-! ### Transactions -/

/-- One transaction, served whole before the next (R59, R63, R141). -/
def transact (cfg : Config) (t : HostTxn) (s : State) : Host.Outcome State Fault Refusal :=
  match t with
  | .read a w =>
    match hostRead a w s with
    | .ok v => .next (s.setReply (some v))
    | .error f => .fault f
  | .write a w v => hostWrite cfg a w v (s.setReply none)
  | .reset => .next s.applyReset

/-- Serve the oldest transaction of the host; with none, the block is idle and keeps all its state (R63, R127). -/
def serveNext (cfg : Config) (s : State) : Host.Outcome State Fault Refusal :=
  match s.inbox with
  | [] => .next s
  | t :: ts => transact cfg t (s.setInbox ts)

/-- Serve a list of transactions in order (R63), stopping at the first fault of the host's run (R14). -/
def serve (cfg : Config) : List HostTxn → State → Host.Outcome State Fault Refusal
  | [], s => .next s
  | t :: ts, s =>
    match transact cfg t s with
    | .next s' => serve cfg ts s'
    | .fault f => .fault f
    | .refused r => .refused r

/-- What the host gets from one transaction. -/
inductive Response where
  /-- A write or a reset was taken. -/
  | done
  /-- A read returned a value. -/
  | value (v : Word)
  /-- The access was a fault of the host's run, recorded as R128 says. -/
  | fault (f : Fault)
  /-- The model refused; no command does. -/
  | refused (r : Refusal)
  deriving DecidableEq, Repr

/-- The response that a served transaction left. -/
def State.response (s : State) : Response :=
  match s.reply with
  | some v => .value v
  | none => .done

/-- A host that goes on after a fault: the faults "do not change ERR or STATE, and a later command is not affected by
them" (R128), so the block's state is the one before the access. -/
def session (cfg : Config) : List HostTxn → State → List Response × State
  | [], s => ([], s)
  | t :: ts, s =>
    match transact cfg t s with
    | .next s' => (s'.response :: (session cfg ts s').1, (session cfg ts s').2)
    | .fault f => (.fault f :: (session cfg ts s).1, (session cfg ts s).2)
    | .refused r => (.refused r :: (session cfg ts s).1, (session cfg ts s).2)


end Sys2Proof.Machine
end

