-- ==== Sys2Proof/Machine/Step.lean ====
section
/-! DEFINITION. The step of one TPQ instance: it serves the oldest host transaction. TPQ fetches no instructions
(spec/10_state.md R19): a command runs when the host writes it to CMD. -/

namespace Sys2Proof.Machine

open Sys2Proof

/-- One step, with the parameter at the spec's default (R7, R63; log entries 1 and 9). -/
def step (s : State) : Host.Outcome State Fault Refusal := serveNext Config.tpq1 s

/-- `s` with the host about to write the command word to CMD (log entry 1): the very next step executes it. -/
def State.withFetchWord (s : State) (nbits w : Nat) : State :=
  s.setInbox (.write 0x00 .w32 (tableWord nbits w) :: s.inbox)

end Sys2Proof.Machine
end

