-- ==== Sys2Proof/Machine/Assembler.lean ====
section
/-! DEFINITION. The host's side in the spec's own notation: assembler lines and pseudo-instructions as lists of host
transactions (spec/30_encoding.md R79, R80), their text form, and the wait for a blob (R80, R120). Nothing here is
state of the block. -/

namespace Sys2Proof.Machine

open Sys2Proof

/-! ### Lines -/

/-- The register names of R30. -/
inductive RegName where
  /-- 0x00. -/
  | cmd
  /-- 0x04. -/
  | pix
  /-- 0x08. -/
  | imgdim
  /-- 0x0C. -/
  | qout
  /-- 0x10. -/
  | status
  /-- 0x14. -/
  | idx
  /-- 0x18. -/
  | lcnt
  /-- 0x1C. -/
  | errinfo
  /-- 0x20. -/
  | id
  deriving DecidableEq, Repr

/-- The offset of a register (R30). -/
def RegName.offset : RegName → Offset
  | .cmd => 0x00
  | .pix => 0x04
  | .imgdim => 0x08
  | .qout => 0x0C
  | .status => 0x10
  | .idx => 0x14
  | .lcnt => 0x18
  | .errinfo => 0x1C
  | .id => 0x20

/-- One line of the assembler: a command, a host access (R79) or a pseudo-instruction (R80). -/
inductive AsmLine where
  /-- A command, by its mnemonic. -/
  | command (i : Instr)
  /-- `START dK, fmt`. -/
  | startAs (b : Dim) (f : Format)
  /-- `WR reg, v`. -/
  | wr (r : RegName) (v : Word)
  /-- `RD reg`. -/
  | rd (r : RegName)
  /-- `RDB o`, `RDH o`, `RDW o`. -/
  | rdWindow (w : Width) (o : BitVec 16)
  /-- `LOADMAP dK, t0, ..., t(N−1)`. -/
  | loadMap (b : Dim) (ts : List Entry)
  /-- `QPIX fmt, p`. -/
  | qpix (f : Format) (p : Word)
  /-- `PUSHPIX p`. -/
  | pushPix (p : Word)
  /-- `ENCODE dK, w, h, p0, ..., p(N−1)`. -/
  | encode (b : Dim) (w h : BitVec 16) (ps : List Word)
  /-- `WAITVALID`. -/
  | waitValid
  deriving DecidableEq, Repr

/-- MAPBEGIN of a bank. -/
def mapbeginOf : Dim → Instr
  | .d24 => .mapbeginD24
  | .d48 => .mapbeginD48
  | .d256 => .mapbeginD256

/-- MAPVERIFY of a bank. -/
def mapverifyOf : Dim → Instr
  | .d24 => .mapverifyD24
  | .d48 => .mapverifyD48
  | .d256 => .mapverifyD256

/-- QUANT in a format. -/
def quantOf : Format → Instr
  | .rgb565 => .quantRgb565
  | .rgba4444 => .quantRgba4444

/-- START of a dimension. -/
def startOf : Dim → Instr
  | .d24 => .startD24
  | .d48 => .startD48
  | .d256 => .startD256

/-- A 32-bit host write of a register. -/
def wrTxn (r : RegName) (v : Word) : HostTxn := .write r.offset .w32 v

/-- A 32-bit host read of a register. -/
def rdTxn (r : RegName) : HostTxn := .read r.offset .w32

/-- A command: `CMD <-` its word. -/
def cmdTxn (i : Instr) : HostTxn := wrTxn .cmd (Sys2Proof.encode i)

/-- The window offset of blob byte o: 0x10000 + o (R40, R49). -/
def windowOffset (o : BitVec 16) : Offset := 1#1 ++ o

/-- `PUSHPIX p` (R80). -/
def pushPixTxns (p : Word) : List HostTxn := [wrTxn .pix p, cmdTxn .push]

/-- `LOADMAP dK, t0, ...` (R80), the document's `load(dimension)`. -/
def loadMapTxns (b : Dim) (ts : List Entry) : List HostTxn :=
  cmdTxn (mapbeginOf b) :: (ts.map (fun t => cmdTxn (.mapentry t)) ++ [cmdTxn .mapend])

/-- `ENCODE dK, w, h, p0, ...` (R80), the document's `encode(image, size)`. -/
def encodeTxns (b : Dim) (w h : BitVec 16) (ps : List Word) : List HostTxn :=
  wrTxn .imgdim (imageSize w h) :: cmdTxn (startOf b) :: ps.flatMap pushPixTxns

/-- The transactions of a line. The assembler refuses `START dK, fmt` with a format that is not dK's (R79). DESIGN CHOICE
(log entry 16): it refuses a LOADMAP or ENCODE whose list is not the N(b) long one of R80, and `WAITVALID` gives one read
of STATUS, which suffices (R120); `waitValid` is R80's loop. -/
def AsmLine.assemble : AsmLine → Option (List HostTxn)
  | .command i => some [cmdTxn i]
  | .startAs b f => if f = b.format then some [cmdTxn (startOf b)] else none
  | .wr r v => some [wrTxn r v]
  | .rd r => some [rdTxn r]
  | .rdWindow w o => some [.read (windowOffset o) w]
  | .loadMap b ts => if ts.length = b.entries then some (loadMapTxns b ts) else none
  | .qpix f p => some [wrTxn .pix p, cmdTxn (quantOf f)]
  | .pushPix p => some (pushPixTxns p)
  | .encode b w h ps => if ps.length = b.entries then some (encodeTxns b w h ps) else none
  | .waitValid => some [rdTxn .status]

/-- WAITVALID's test: STATUS.BVALID = 1 or STATUS.STATE = 7 (R80). -/
def waitDone (status : Word) : Bool :=
  status.extractLsb' 3 1 == 1 || status.extractLsb' 0 3 == 7

/-- `WAITVALID`, at most `fuel` reads of STATUS: the first status that ends the wait, if there is one (R80, R139). -/
def waitValid (cfg : Config) : Nat → State → Option Word
  | 0, _ => none
  | fuel + 1, s =>
    match transact cfg (rdTxn .status) s with
    | .next s' =>
      match s'.reply with
      | some v => if waitDone v then some v else waitValid cfg fuel s'
      | none => none
    | .fault _ => none
    | .refused _ => none

/-! ### What the host may take from a run -/

/-- The whole blob, byte by byte, as a host may read it (R100, R136): with BVALID = 1, outside ERROR (R138), and only if
every one of its 2N(ADIM) bytes is readable (R58). -/
def State.output (s : State) : Option (List Byte) :=
  if s.seq = .error then none
  else if s.bvalid = false then none
  else
    match s.windowBytes 0 s.adim.blobBytes with
    | .ok bs => some bs
    | .error _ => none

/-! ### Text (R79) -/

/-- Mnemonics are case-insensitive (R79). -/
def lowerChar (c : Char) : Char :=
  if 65 ≤ c.toNat ∧ c.toNat ≤ 90 then Char.ofNat (c.toNat + 32) else c

/-- `;` starts a comment. -/
def dropComment : List Char → List Char
  | [] => []
  | c :: cs => if c = ';' then [] else c :: dropComment cs

/-- Words are parted by spaces, tabs and commas (log entry 16). -/
def isSeparator (c : Char) : Bool := c = ' ' || c = ',' || c = '\t' || c = '\r'

/-- The words of a line, in lower case; `cur` holds the word being read, reversed. R79 makes only the mnemonics
case-insensitive; that operand names, hexadecimal digits and the prefix `0x` are too is a DESIGN CHOICE (log entry 16). -/
def splitWords : List Char → List Char → List (List Char)
  | [], cur => if cur.isEmpty then [] else [cur.reverse]
  | c :: cs, cur =>
    if isSeparator c then
      if cur.isEmpty then splitWords cs [] else cur.reverse :: splitWords cs []
    else splitWords cs (lowerChar c :: cur)

/-- The value of a digit, if the character is one of the base. -/
def digitValue (base : Nat) (c : Char) : Option Nat :=
  if 48 ≤ c.toNat ∧ c.toNat ≤ 57 ∧ c.toNat < 48 + base then some (c.toNat - 48)
  else if base = 16 ∧ 97 ≤ c.toNat ∧ c.toNat ≤ 102 then some (c.toNat - 87)
  else none

/-- The number a list of digits spells, from the value read so far. -/
def digits (base acc : Nat) : List Char → Option Nat
  | [] => some acc
  | c :: cs =>
    match digitValue base c with
    | some d => digits base (acc * base + d) cs
    | none => none

/-- Numbers are decimal or `0x` hexadecimal. -/
def number : List Char → Option Nat
  | [] => none
  | ['0', 'x'] => none
  | '0' :: 'x' :: cs => digits 16 0 cs
  | cs => digits 10 0 cs

/-- A number that fits in n bits. -/
def numberBits (n : Nat) (cs : List Char) : Option (BitVec n) :=
  match number cs with
  | some v => if v < 2 ^ n then some (BitVec.ofNat n v) else none
  | none => none

/-- `d24`, `d48`, `d256`. -/
def dimName : List Char → Option Dim
  | ['d', '2', '4'] => some .d24
  | ['d', '4', '8'] => some .d48
  | ['d', '2', '5', '6'] => some .d256
  | _ => none

/-- `rgb565`, `rgba4444`. -/
def formatName : List Char → Option Format
  | ['r', 'g', 'b', '5', '6', '5'] => some .rgb565
  | ['r', 'g', 'b', 'a', '4', '4', '4', '4'] => some .rgba4444
  | _ => none

/-- The register names, in lower case. -/
def regName : List Char → Option RegName
  | ['c', 'm', 'd'] => some .cmd
  | ['p', 'i', 'x'] => some .pix
  | ['i', 'm', 'g', 'd', 'i', 'm'] => some .imgdim
  | ['q', 'o', 'u', 't'] => some .qout
  | ['s', 't', 'a', 't', 'u', 's'] => some .status
  | ['i', 'd', 'x'] => some .idx
  | ['l', 'c', 'n', 't'] => some .lcnt
  | ['e', 'r', 'r', 'i', 'n', 'f', 'o'] => some .errinfo
  | ['i', 'd'] => some .id
  | _ => none

/-- The line that the words spell (R79, R80). -/
def parseWords : List (List Char) → Option AsmLine
  | [['n', 'o', 'p']] => some (.command .nop)
  | [['m', 'a', 'p', 'b', 'e', 'g', 'i', 'n'], d] => (dimName d).map (fun b => .command (mapbeginOf b))
  | [['m', 'a', 'p', 'e', 'n', 't', 'r', 'y'], v] => (numberBits 16 v).map (fun x => .command (.mapentry x))
  | [['m', 'a', 'p', 'e', 'n', 'd']] => some (.command .mapend)
  | [['m', 'a', 'p', 'v', 'e', 'r', 'i', 'f', 'y'], d] => (dimName d).map (fun b => .command (mapverifyOf b))
  | [['q', 'u', 'a', 'n', 't'], f] => (formatName f).map (fun x => .command (quantOf x))
  | [['s', 't', 'a', 'r', 't'], d] => (dimName d).map (fun b => .command (startOf b))
  | [['s', 't', 'a', 'r', 't'], d, f] =>
    match dimName d, formatName f with
    | some b, some x => some (.startAs b x)
    | _, _ => none
  | [['p', 'u', 's', 'h']] => some (.command .push)
  | [['w', 'r'], r, v] =>
    match regName r, numberBits 32 v with
    | some x, some y => some (.wr x y)
    | _, _ => none
  | [['r', 'd'], r] => (regName r).map .rd
  | [['r', 'd', 'b'], o] => (numberBits 16 o).map (.rdWindow .w8)
  | [['r', 'd', 'h'], o] => (numberBits 16 o).map (.rdWindow .w16)
  | [['r', 'd', 'w'], o] => (numberBits 16 o).map (.rdWindow .w32)
  | ['l', 'o', 'a', 'd', 'm', 'a', 'p'] :: d :: vs =>
    match dimName d, vs.mapM (numberBits 16) with
    | some b, some ts => some (.loadMap b ts)
    | _, _ => none
  | [['q', 'p', 'i', 'x'], f, p] =>
    match formatName f, numberBits 32 p with
    | some x, some y => some (.qpix x y)
    | _, _ => none
  | [['p', 'u', 's', 'h', 'p', 'i', 'x'], p] => (numberBits 32 p).map .pushPix
  | ['e', 'n', 'c', 'o', 'd', 'e'] :: d :: w :: h :: ps =>
    match dimName d, numberBits 16 w, numberBits 16 h, ps.mapM (numberBits 32) with
    | some b, some x, some y, some qs => some (.encode b x y qs)
    | _, _, _, _ => none
  | [['w', 'a', 'i', 't', 'v', 'a', 'l', 'i', 'd']] => some .waitValid
  | _ => none

/-- The transactions of one line of text; a line with no word has none. -/
def assembleText (line : List Char) : Option (List HostTxn) :=
  match splitWords (dropComment line) [] with
  | [] => some []
  | ws =>
    match parseWords ws with
    | some l => l.assemble
    | none => none

end Sys2Proof.Machine
end

