-- ==== Sys2Proof/Machine/Platform.lean ====
section
/-! DEFINITION. Several instances on one host bus (spec/00_scope.md R12, spec/20_memory.md R49, R61,
spec/60_exceptions.md R125). `NUM_INSTANCES` and each `TPQ_BASE` are arguments: the length of the list and the field
`base`. Instances share nothing. -/

namespace Sys2Proof.Machine

open Sys2Proof

/-- One instance at its place on the host bus. -/
structure Placed where
  /-- `TPQ_BASE` (R7). -/
  base : Nat
  /-- Its parameter (R7). -/
  cfg : Config
  /-- All of its state (R17, R43). -/
  st : State
  deriving DecidableEq, Repr

/-- The instances of a platform. -/
abbrev Platform := List Placed

/-- The offset a host address has in an instance, if the instance decodes it: its window is 0x20000 bytes at
`TPQ_BASE` (R49, R61). -/
def Placed.offset (p : Placed) (addr : Nat) : Option Offset :=
  if p.base ≤ addr ∧ addr < p.base + 131072 then some (BitVec.ofNat 17 (addr - p.base)) else none

/-- A host access before its address is decoded. -/
inductive BusAccess where
  /-- A read of a width. -/
  | read (w : Width)
  /-- A write of a width and a value. -/
  | write (w : Width) (v : Word)
  deriving DecidableEq, Repr

/-- The access at an offset of an instance. -/
def BusAccess.at (x : BusAccess) (a : Offset) : HostTxn :=
  match x with
  | .read w => .read a w
  | .write w v => .write a w v

/-- Put an outcome of one instance back into its place. -/
def Placed.settle (p : Placed) (ps : Platform) : Host.Outcome State Fault Refusal → Host.Outcome Platform Fault Refusal
  | .next s => .next ({ p with st := s } :: ps)
  | .fault f => .fault f
  | .refused r => .refused r

/-- Keep an instance in front of an outcome of the others. -/
def Placed.keep (p : Placed) : Host.Outcome Platform Fault Refusal → Host.Outcome Platform Fault Refusal
  | .next ps => .next (p :: ps)
  | .fault f => .fault f
  | .refused r => .refused r

/-- A host access at a bus address: the instance that decodes it serves it; `none` where no instance does, which is the
platform's concern (R49; log entry 10). -/
def Platform.access (addr : Nat) (x : BusAccess) : Platform → Option (Host.Outcome Platform Fault Refusal)
  | [] => none
  | p :: ps =>
    match p.offset addr with
    | some a => some (p.settle ps (transact p.cfg (x.at a) p.st))
    | none => (Platform.access addr x ps).map p.keep

/-- A platform at power-on: an instance at each base with its parameter, "each instance starts in the reset state"
(R125, R129). -/
def Platform.start (places : List (Nat × Config)) : Platform :=
  places.map (fun p => { base := p.1, cfg := p.2, st := State.reset })

/-- The platform asserts the reset input of instance k (R129). -/
def Platform.resetAt (k : Nat) (ps : Platform) : Platform :=
  ps.modify k (fun p => { p with st := p.st.applyReset })

end Sys2Proof.Machine
end

