-- ==== Sys2Proof/Safety.lean ====
section
/-! DEFINITION. What counts as a good state and a good run of TPQ, in the terms the statements use: the ends of a run
(spec/00_scope.md R16, spec/70_reset_and_hazards.md R139), the table of which command each STATE accepts
(spec/43_control.md R107), the bijection precondition (spec/40_map_load.md R86) and the invariant of the machine. -/

namespace Sys2Proof

open Sys2Proof.Machine

/-! ### Ends of a run -/

/-- A run of one encode has ended well: BVALID = 1 (R16, R100), not in ERROR (R16) and with no later load begun and not
ended, a run treated "as not final and never as a success" (R139) although its MAPBEGIN leaves the blob valid (R81). -/
def Machine.State.succeeded (s : State) : Prop := s.bvalid = true ∧ s.seq = .idle

/-- The run has failed: STATE = ERROR (R16, R138). -/
def Machine.State.failed (s : State) : Prop := s.seq = .error

/-- A load or an encode the host has not finished: never final (R139). -/
def Machine.State.unfinished (s : State) : Prop := s.seq = .loading ∨ s.seq = .encoding

/-! ### Command legality -/

/-- R107's table: the command's own rule applies in this STATE. In IDLE, LOADING and ENCODING the other commands raise
SequenceError, and in ERROR every command is discarded. -/
def Instr.runsIn : Instr → Seq → Bool
  | _, .error => false
  | .nop, _ => true
  | .mapbeginD24, q => q == .idle
  | .mapbeginD48, q => q == .idle
  | .mapbeginD256, q => q == .idle
  | .mapentry _, q => q == .loading
  | .mapend, q => q == .loading
  | .mapverifyD24, q => q == .idle
  | .mapverifyD48, q => q == .idle
  | .mapverifyD256, q => q == .idle
  | .quantRgb565, _ => true
  | .quantRgba4444, _ => true
  | .startD24, q => q == .idle
  | .startD48, q => q == .idle
  | .startD256, q => q == .idle
  | .push, q => q == .encoding

/-! ### The table -/

/-- The bijection of R84 and R86: every destination offset 0 .. N(b)−1 appears exactly once in MAP[b]. -/
def Machine.State.Bijective (s : State) (b : Dim) : Prop :=
  ∀ d, d < b.entries → ∃ x, x < b.entries ∧ (s.mapEntry b x).toNat = d ∧
    ∀ y, y < b.entries → (s.mapEntry b y).toNat = d → y = x

/-! ### The invariant -/

/-- What holds in every state the machine reaches from reset. -/
structure Machine.State.Inv (s : State) : Prop where
  /-- OUT is in canonical form. -/
  outWf : Memory.wf s.out = true
  /-- WR is in canonical form. -/
  wrWf : Memory.wf s.wr = true
  /-- Every bank is in canonical form. -/
  mapWf : ∀ b, Memory.wf (s.map.get b) = true
  /-- OUT lists only its 65536 bytes (R26). -/
  outRange : ∀ o v, cellRead s.out o = some v → o < 65536
  /-- Bank b lists only its N(b) entries (R22). -/
  mapRange : ∀ b i v, cellRead (s.map.get b) i = some v → i < b.entries
  /-- A marked byte has been written (R26). -/
  markedWritten : ∀ o, s.marked o = true → ∃ v, s.outByte o = some v
  /-- A marked byte lies in the blob of the current encode (R26, R99). -/
  markedInBlob : ∀ o, s.marked o = true → o < s.adim.blobBytes
  /-- The marks are the two bytes of each entry pushed so far, and no others (R26, R98). -/
  markedFromTable : ∀ o, s.marked o = true ↔ ∃ x, x < s.idx.toNat ∧ (s.mapEntry s.adim x).toNat = o / 2
  /-- "LCNT never exceeds N(LBANK)" (R24). -/
  lcntLe : s.lcnt.toNat ≤ s.lbank.entries
  /-- IDX stops at N(ADIM) (R19). -/
  idxLe : s.idx.toNat ≤ s.adim.entries
  /-- Pixels are pushed through a loaded bank only (R97). -/
  idxLoaded : 0 < s.idx.toNat → s.loaded.get s.adim = true
  /-- The bank being loaded is not loaded and holds the entries received (R23, R24). -/
  loadingBank : s.seq = .loading → s.loaded.get s.lbank = false ∧
    ∀ i, i < s.lcnt.toNat → ∃ v, cellRead (s.map.get s.lbank) i = some v
  /-- A loaded bank holds all its entries (R22, R83). -/
  loadedFull : ∀ b, s.loaded.get b = true → ∀ i, i < b.entries → ∃ v, cellRead (s.map.get b) i = some v
  /-- An encode under way has a loaded bank and a pixel to come (R20, R97). -/
  encodingOpen : s.seq = .encoding → s.idx.toNat < s.adim.entries ∧ s.loaded.get s.adim = true
  /-- A valid blob is complete, and no error or encode has come since (R27, R100). -/
  blobComplete : s.bvalid = true → (s.seq = .idle ∨ s.seq = .loading) ∧ s.idx.toNat = s.adim.entries
  /-- There is an error record exactly in ERROR (R28, R112). -/
  errState : s.err = .none ↔ s.seq ≠ .error
  /-- Without an error the record is clear (R44). -/
  errClear : s.err = .none → s.errsub = 0 ∧ s.errinfo = 0
  /-- The format is the one START pairs with the dimension (R75). -/
  formatPaired : s.afmt = s.adim.format
  /-- VOK says whether the loaded bank VBANK is a bijection, and goes on saying so (R23, R29). -/
  verified : s.vdone = true → s.loaded.get s.vbank = true ∧ (s.vok = true ↔ s.Bijective s.vbank)
  /-- No result before a MAPVERIFY has completed (R29, R44). -/
  unverified : s.vdone = false → s.vok = false ∧ s.vbank = .d24

end Sys2Proof
end

