-- ==== Sys2Proof/Certificates/Slice0/Obligations.lean ====
section
/-! DEFINITION. The statements for the provers, from the numbered rules of spec/. A next state is given as the record
of the state before with exactly the fields the rule writes, so every such statement is its own frame. -/

open Sys2Proof Sys2Proof.Machine

/-! ### Encoding -/

/-- Decode and encode agree (R68 to R74): the word of a command that exists decodes to that command, for every operand. -/
def Obligations.DecodeOfEncodeIsTheCommand : Prop :=
  ∀ (c : Config) (i : Instr), i.wellFormed c = true → decode c.hasVerify (encode i) = .ok i

/-- Each legal word has one meaning (R73): what decodes to a command is that command's word, and the command exists. -/
def Obligations.EncodeOfDecodeIsTheWord : Prop :=
  ∀ (c : Config) (w : Word) (i : Instr), decode c.hasVerify w = .ok i → encode i = w ∧ i.wellFormed c = true

/-- R73: the legal words are exactly these, and every other word raises IllegalCommand. -/
def Obligations.LegalWordsAreExactlyTheTable : Prop :=
  (∀ (hv : Bool) (w : Word) (i : Instr), decode hv w = .ok i ↔
    (w = 0x00000000 ∧ i = .nop) ∨ (w = 0x10000000 ∧ i = .mapbeginD24) ∨ (w = 0x14000000 ∧ i = .mapbeginD48) ∨
    (w = 0x18000000 ∧ i = .mapbeginD256) ∨ (∃ v : Entry, w = 0x2000#16 ++ v ∧ i = .mapentry v) ∨
    (w = 0x30000000 ∧ i = .mapend) ∨ (hv = true ∧ w = 0x40000000 ∧ i = .mapverifyD24) ∨
    (hv = true ∧ w = 0x44000000 ∧ i = .mapverifyD48) ∨ (hv = true ∧ w = 0x48000000 ∧ i = .mapverifyD256) ∨
    (w = 0x50000000 ∧ i = .quantRgb565) ∨ (w = 0x52000000 ∧ i = .quantRgba4444) ∨
    (w = 0x60000000 ∧ i = .startD24) ∨ (w = 0x64000000 ∧ i = .startD48) ∨ (w = 0x6A000000 ∧ i = .startD256) ∨
    (w = 0x70000000 ∧ i = .push)) ∧
  (∀ (c : Config) (w : Word) (s : State), s.seq ≠ .error → (∀ i, decode c.hasVerify w ≠ .ok i) →
    ∃ sub, transact c (.write 0x00 .w32 w) s = .next { s with
      reply := none, err := .illegalCommand, errsub := sub,
      errinfo := w &&& 0xFFFF0000, seq := .error, bvalid := false })

/-- R74 written out over the word as a number: what a CMD write does, for every word and every state. -/
def Obligations.CommandWriteFollowsTheDecodeRule : Prop :=
  ∀ (c : Config) (w : Word) (s : State),
    transact c (.write 0x00 .w32 w) s =
      (let op := w.toNat / 2 ^ 28
       let dim := w.toNat / 2 ^ 26 % 4
       let fmt := w.toNat / 2 ^ 25 % 2
       let rz := w.toNat / 2 ^ 16 % 512
       let imm := w.toNat % 2 ^ 16
       let t := { s with reply := none }
       let illegal := fun (sub : BitVec 4) => (Host.Outcome.next { t with
          err := .illegalCommand, errsub := sub, errinfo := BitVec.ofNat 32 (w.toNat / 2 ^ 16 * 2 ^ 16),
          seq := .error, bvalid := false } : Host.Outcome State Fault Refusal)
       if s.seq = .error then .next t
       else if 8 ≤ op then illegal 0
       else if op = 4 ∧ c.hasVerify = false then illegal 0
       else if (op = 1 ∨ op = 4 ∨ op = 6) ∧ dim = 3 then illegal 2
       else if rz ≠ 0 then illegal 1
       else if op = 0 then if dim ≠ 0 ∨ fmt ≠ 0 ∨ imm ≠ 0 then illegal 1 else exec .nop t
       else if op = 1 then
         if fmt ≠ 0 ∨ imm ≠ 0 then illegal 1
         else if dim = 0 then exec .mapbeginD24 t else if dim = 1 then exec .mapbeginD48 t else exec .mapbeginD256 t
       else if op = 2 then
         if dim ≠ 0 ∨ fmt ≠ 0 then illegal 1 else exec (.mapentry (BitVec.ofNat 16 imm)) t
       else if op = 3 then if dim ≠ 0 ∨ fmt ≠ 0 ∨ imm ≠ 0 then illegal 1 else exec .mapend t
       else if op = 4 then
         if fmt ≠ 0 ∨ imm ≠ 0 then illegal 1
         else if dim = 0 then exec .mapverifyD24 t else if dim = 1 then exec .mapverifyD48 t else exec .mapverifyD256 t
       else if op = 5 then
         if dim ≠ 0 ∨ imm ≠ 0 then illegal 1
         else if fmt = 0 then exec .quantRgb565 t else exec .quantRgba4444 t
       else if op = 6 then
         if imm ≠ 0 then illegal 1
         else if dim = 0 ∧ fmt = 0 then exec .startD24 t
         else if dim = 1 ∧ fmt = 0 then exec .startD48 t
         else if dim = 2 ∧ fmt = 1 then exec .startD256 t
         else illegal 3
       else if dim ≠ 0 ∨ fmt ≠ 0 ∨ imm ≠ 0 then illegal 1 else exec .push t)

/-- A few words written out from R73 decode to the commands they stand for, and a few of the words of
95_test_vectors.md section 2.1 to their sub-causes. -/
def Obligations.SampleWordsDecodeAsWritten : Prop :=
  decode true 0x14000000 = .ok .mapbeginD48 ∧ decode true 0x20000258 = .ok (.mapentry 600) ∧
  decode true 0x48000000 = .ok .mapverifyD256 ∧ decode true 0x52000000 = .ok .quantRgba4444 ∧
  decode true 0x6A000000 = .ok .startD256 ∧ decode true 0x70000000 = .ok .push ∧
  decode true 0x62000000 = .error .pairing ∧ decode true 0x7C000000 = .error .reservedField ∧
  decode true 0x4C000000 = .error .reservedDim ∧ decode false 0x40000000 = .error .reservedOp

/-! ### The step -/

/-- A step runs the decoded command: when the host's oldest transaction writes a legal word to CMD, the step is `exec`
of that command, with that transaction taken from the list and no value returned to the host. That the host's transactions
stand in a list, and that withFetchWord puts one there, is the model's choice (log entry 1). -/
def Obligations.StepRunsTheDecodedCommand : Prop :=
  (∀ (s : State) (w : Word) (i : Instr) (rest : List HostTxn), s.inbox = .write 0x00 .w32 w :: rest →
    decode Config.tpq1.hasVerify w = .ok i → step s = exec i { s with inbox := rest, reply := none }) ∧
  (∀ (s : State) (i : Instr), step (s.withFetchWord 32 (encode i).toNat) = exec i { s with reply := none })

/-- With nothing issued by the host the instance is idle and keeps all its state (R127). That the host's transactions
stand in a list of the state is the model's choice (log entry 1). -/
def Obligations.StepWithNoTransactionKeepsTheState : Prop :=
  ∀ s : State, s.inbox = [] → step s = .next s

/-- R106: in ERROR every command is discarded, the first error's record stays, and only reset leaves ERROR. -/
def Obligations.ErrorGateDiscardsEveryCommand : Prop :=
  ∀ (c : Config) (s : State), s.seq = .error →
    (∀ i, exec i s = .next s) ∧
    (∀ w, transact c (.write 0x00 .w32 w) s = .next { s with reply := none }) ∧
    (∀ x t, x ≠ .reset → transact c x s = .next t →
      t.seq = .error ∧ t.err = s.err ∧ t.errsub = s.errsub ∧ t.errinfo = s.errinfo)

/-- R117: over any run without a reset, the ERROR state and its record last. -/
def Obligations.ErrorLastsOverARunWithoutReset : Prop :=
  ∀ (k : Nat) (s t : State), s.seq = .error → HostTxn.reset ∉ s.inbox → Sys2Proof.core.run k s = .next t →
    t.seq = .error ∧ t.bvalid = s.bvalid ∧ t.err = s.err ∧ t.errsub = s.errsub ∧ t.errinfo = s.errinfo

/-- R21: every change of STATE is one of the table's transitions, on the table's event. -/
def Obligations.SequencerTransitionsAreTheTable : Prop :=
  ∀ (c : Config) (x : HostTxn) (s t : State), transact c x s = .next t → t.seq ≠ s.seq →
    (x = .reset ∧ t.seq = .idle) ∨
    (s.seq ≠ .error ∧ t.seq = .error ∧ t.err ≠ .none) ∨
    (s.seq = .idle ∧ t.seq = .loading ∧ ∃ b, x = .write 0x00 .w32 (encode (mapbeginOf b)) ∧ t.lbank = b) ∨
    (s.seq = .loading ∧ t.seq = .idle ∧ x = .write 0x00 .w32 (encode .mapend)) ∨
    (s.seq = .idle ∧ t.seq = .encoding ∧ ∃ b, x = .write 0x00 .w32 (encode (startOf b)) ∧ t.adim = b) ∨
    (s.seq = .encoding ∧ t.seq = .idle ∧ x = .write 0x00 .w32 (encode .push) ∧ t.idx.toNat = t.adim.entries)

/-! ### Command legality and error entry -/

/-- R107: outside ERROR, a command the table does not accept raises SequenceError with ERRSUB = STATE, and one it
accepts raises none. The values of STATE are R20's: 0 IDLE, 1 LOADING, 2 ENCODING. -/
def Obligations.CommandLegalityByState : Prop :=
  ∀ (i : Instr) (s : State), s.seq ≠ .error →
    (i.runsIn s.seq = false → exec i s = .next { s with
      err := .sequenceError
      errsub := (match s.seq with | .idle => 0 | .loading => 1 | .encoding => 2 | .error => 7)
      errinfo := encode i &&& 0xFFFF0000, seq := .error, bvalid := false }) ∧
    (i.runsIn s.seq = true → ∃ t, exec i s = .next t ∧ (t.err = .sequenceError → s.err = .sequenceError))

/-- R112 and R116: a command that raises an error has no other effect; error entry writes the record, STATE and BVALID
and nothing else. -/
def Obligations.ErrorEntryIsPrecise : Prop :=
  ∀ (i : Instr) (s t : State), s.seq ≠ .error → exec i s = .next t → t.seq = .error →
    t = { s with err := t.err, errsub := t.errsub, errinfo := t.errinfo, seq := .error, bvalid := false } ∧
    t.err ≠ .none

/-- Every command answers a next state: none faults and none is refused. R18: no command writes PIX or IMGDIM. That a
command takes nothing from the host's list and returns no value is about the model's own fields (log entries 1 and 2). -/
def Obligations.EveryCommandAnswersANextState : Prop :=
  ∀ (i : Instr) (s : State), ∃ t, exec i s = .next t ∧ t.inbox = s.inbox ∧ t.reply = s.reply ∧
    t.pix = s.pix ∧ t.imgdim = s.imgdim

/-- NOP (R105) changes nothing in any STATE; 0x00000000 is its only word, and OP = 0 with any other bit set is
IllegalCommand sub-cause 1. -/
def Obligations.NopChangesNothing : Prop :=
  (∀ s : State, exec .nop s = .next s) ∧
  (∀ hv, decode hv 0x00000000 = .ok .nop) ∧
  (∀ (hv : Bool) (w : Word), decode hv w = .ok .nop → w = 0x00000000) ∧
  (∀ (hv : Bool) (w : Word), w.toNat / 2 ^ 28 = 0 → w ≠ 0 → decode hv w = .error .reservedField)

/-! ### Lookup-table load -/

/-- MAPBEGIN.D24, .D48, .D256 (R81) of a bank that is not loaded, in IDLE. -/
def Obligations.MapbeginBeginsTheLoad : Prop :=
  ∀ (b : Dim) (s : State), s.seq = .idle → s.loaded.get b = false →
    exec (mapbeginOf b) s = .next { s with lbank := b, lcnt := 0, seq := .loading }

/-- MAPBEGIN (R81) of a loaded bank raises MapImmutable with the bank and the command word's upper half. -/
def Obligations.MapbeginOfALoadedBankIsMapImmutable : Prop :=
  ∀ (b : Dim) (s : State), s.seq = .idle → s.loaded.get b = true →
    exec (mapbeginOf b) s = .next { s with
      err := .mapImmutable, errsub := BitVec.ofNat 4 b.code.toNat,
      errinfo := BitVec.ofNat 32 (0x10000000 + b.code.toNat * 2 ^ 26), seq := .error, bvalid := false }

/-- MAPENTRY (R82) stores v at MAP[LBANK][LCNT] and counts it; every other entry of every bank is as before. -/
def Obligations.MapentryStoresTheEntry : Prop :=
  ∀ (v : Entry) (s : State), s.seq = .loading → s.lcnt.toNat < s.lbank.entries →
    ∃ t, exec (.mapentry v) s = .next t ∧ t.mapEntry s.lbank s.lcnt.toNat = v ∧ t.lcnt.toNat = s.lcnt.toNat + 1 ∧
      (∀ b i, (b, i) ≠ (s.lbank, s.lcnt.toNat) → cellRead (t.map.get b) i = cellRead (s.map.get b) i) ∧
      t = { s with map := t.map, lcnt := t.lcnt }

/-- MAPENTRY (R82, R110): the entry after the last is ResourceError 2 and is not stored. -/
def Obligations.MapentryBeyondTheTableIsResourceError : Prop :=
  ∀ (v : Entry) (s : State), s.seq = .loading → s.lcnt.toNat = s.lbank.entries →
    exec (.mapentry v) s = .next { s with
      err := .resourceError, errsub := 2, errinfo := v ++ s.lcnt, seq := .error, bvalid := false }

/-- MAPEND (R83) of a complete load sets LOADED[LBANK] and no other. -/
def Obligations.MapendCompletesTheLoad : Prop :=
  ∀ s : State, s.seq = .loading → s.lcnt.toNat = s.lbank.entries →
    ∃ t, exec .mapend s = .next t ∧ t.loaded.get s.lbank = true ∧
      (∀ b, b ≠ s.lbank → t.loaded.get b = s.loaded.get b) ∧ t = { s with loaded := t.loaded, seq := .idle }

/-- MAPEND (R83, R110) of a short load is ResourceError: missing if no entry came, truncated otherwise. -/
def Obligations.MapendOfAShortLoadIsResourceError : Prop :=
  ∀ s : State, s.seq = .loading → s.lcnt.toNat ≠ s.lbank.entries →
    exec .mapend s = .next { s with
      err := .resourceError, errsub := if s.lcnt = 0 then 0 else 1, errinfo := s.lcnt.setWidth 32,
      seq := .error, bvalid := false }

/-- MAPVERIFY.D24, .D48, .D256 (R84) of a loaded bank: VOK says whether every destination offset 0 .. N(b)−1 appears
exactly once, and the table is not changed. -/
def Obligations.MapverifyReportsWhetherTheTableIsABijection : Prop :=
  ∀ (b : Dim) (s : State), s.seq = .idle → s.loaded.get b = true →
    ∃ ok, exec (mapverifyOf b) s = .next { s with vdone := true, vok := ok, vbank := b } ∧
      (ok = true ↔ ∀ d, d < b.entries → ∃! x, x < b.entries ∧ (s.mapEntry b x).toNat = d)

/-- R84, R97, R110: MAPVERIFY of a bank that is not loaded, and START of one with an image of the right size, raise
ResourceError 3 with the bank. -/
def Obligations.AnUnloadedBankIsResourceError : Prop :=
  ∀ (b : Dim) (s : State), s.seq = .idle → s.loaded.get b = false →
    (exec (mapverifyOf b) s = .next { s with
      err := .resourceError, errsub := 3, errinfo := BitVec.ofNat 32 b.code.toNat, seq := .error, bvalid := false }) ∧
    (s.imgdim = BitVec.ofNat 32 (b.width * 2 ^ 16 + b.height) → exec (startOf b) s = .next { s with
      err := .resourceError, errsub := 3, errinfo := BitVec.ofNat 32 b.code.toNat, seq := .error, bvalid := false })

/-- R23: reset clears LOADED; only a MAPEND sets it, for LBANK; and while it is set the bank is immutable, MAPBEGIN of it
raising MapImmutable. Over every state of the invariant. -/
def Obligations.ALoadedTableIsImmutable : Prop :=
  ∀ (c : Config) (x : HostTxn) (s t : State) (b : Dim), s.Inv → transact c x s = .next t →
    (x = .reset → t.loaded.get b = false) ∧
    (s.loaded.get b = false → t.loaded.get b = true →
      x = .write 0x00 .w32 (encode .mapend) ∧ s.seq = .loading ∧ b = s.lbank) ∧
    (x ≠ .reset → s.loaded.get b = true → t.loaded.get b = true ∧ t.map.get b = s.map.get b) ∧
    (x = .write 0x00 .w32 (encode (mapbeginOf b)) → s.seq = .idle → s.loaded.get b = true → t.err = .mapImmutable)

/-- R80, R82, R83: LOADMAP of N(b) entries loads the table into bank b, in order, and touches no other bank. -/
def Obligations.LoadmapLoadsTheTable : Prop :=
  ∀ (c : Config) (b : Dim) (ts : List Entry) (s : State), ts.length = b.entries → s.seq = .idle →
    s.loaded.get b = false →
    ∃ t, serve c (loadMapTxns b ts) s = .next t ∧ t.loaded.get b = true ∧
      (∀ i, (h : i < ts.length) → t.mapEntry b i = ts[i]) ∧
      (∀ d, d ≠ b → t.loaded.get d = s.loaded.get d ∧ t.map.get d = s.map.get d) ∧
      t = { s with
        map := t.map, loaded := t.loaded, lbank := b, lcnt := BitVec.ofNat 16 b.entries, reply := none }

/-! ### The quantizer -/

/-- QUANT.RGB565 (R92, R94): QOUT is R[7:3] : G[7:2] : B[7:3] of PIX, and nothing else changes. -/
def Obligations.QuantRgb565WritesQout : Prop :=
  ∀ s : State, s.seq ≠ .error → exec .quantRgb565 s = .next { s with
    qout := s.pix.extractLsb' 27 5 ++ s.pix.extractLsb' 18 6 ++ s.pix.extractLsb' 11 5 }

/-- QUANT.RGBA4444 (R93, R95): QOUT is R[7:4] : G[7:4] : B[7:4] : A[7:4] of PIX, and nothing else changes. -/
def Obligations.QuantRgba4444WritesQout : Prop :=
  ∀ s : State, s.seq ≠ .error → exec .quantRgba4444 s = .next { s with
    qout := s.pix.extractLsb' 28 4 ++ s.pix.extractLsb' 20 4 ++ s.pix.extractLsb' 12 4 ++ s.pix.extractLsb' 4 4 }

/-- R87 to R91: the two bytes of the quantized pixel by the document's formulas over the channels as numbers, each byte
below 256 with no bit lost. -/
def Obligations.QuantizedBytesFollowTheFormulas : Prop :=
  ∀ p : Word,
    (let R := p.toNat / 2 ^ 24
     let G := p.toNat / 2 ^ 16 % 256
     let B := p.toNat / 2 ^ 8 % 256
     let A := p.toNat % 256
     let r5 := R >>> 3
     let g6 := G >>> 2
     let b5 := B >>> 3
     let byte0 := ((g6 &&& 7) <<< 5) ||| b5
     let byte1 := (r5 <<< 3) ||| (g6 >>> 3)
     let byte0' := ((B >>> 4) <<< 4) ||| (A >>> 4)
     let byte1' := ((R >>> 4) <<< 4) ||| (G >>> 4)
     byte0 < 256 ∧ byte1 < 256 ∧ byte0' < 256 ∧ byte1' < 256 ∧
     (quantize .rgb565 p).toNat = byte1 * 256 + byte0 ∧ (quantize .rgba4444 p).toNat = byte1' * 256 + byte0')

/-- R92, R93, R96: the dropped bits do not matter, and both quantizers reach every 16-bit word. -/
def Obligations.QuantizerDropsLowBitsAndIsSurjective : Prop :=
  (∀ p p' : Word, p &&& 0xF8FCF800 = p' &&& 0xF8FCF800 → quantize .rgb565 p = quantize .rgb565 p') ∧
  (∀ p p' : Word, p &&& 0xF0F0F0F0 = p' &&& 0xF0F0F0F0 → quantize .rgba4444 p = quantize .rgba4444 p') ∧
  (∀ (f : Format) (q : QPixel), ∃ p, quantize f p = q)

/-! ### Encode -/

/-- START.D24, .D48, .D256 (R97) of a loaded bank with an image of the right size: every WR is cleared and no byte of OUT
changes. -/
def Obligations.StartBeginsTheEncode : Prop :=
  ∀ (b : Dim) (s : State), s.seq = .idle → s.imgdim = BitVec.ofNat 32 (b.width * 2 ^ 16 + b.height) →
    s.loaded.get b = true →
    ∃ t, exec (startOf b) s = .next t ∧ (∀ o, t.marked o = false) ∧
      t = { s with
        adim := b, afmt := b.format, idx := 0, bvalid := false, wr := t.wr, seq := .encoding }

/-- START (R97, R109): an image of another size is DimensionError with IMGDIM, sub-cause 1 for the banner, whether the
bank is loaded or not (R114). -/
def Obligations.StartOfAWrongSizeIsDimensionError : Prop :=
  ∀ (b : Dim) (s : State), s.seq = .idle → s.imgdim ≠ BitVec.ofNat 32 (b.width * 2 ^ 16 + b.height) →
    exec (startOf b) s = .next { s with
      err := .dimensionError, errsub := if b = .d256 then 1 else 0, errinfo := s.imgdim,
      seq := .error, bvalid := false }

/-- PUSH (R98, R99) of a pixel that is not the last: Byte0 goes to 2d and Byte1 to 2d + 1 for d = MAP[ADIM][IDX], their
marks are set, every other byte and mark is as before, and QOUT and IDX advance. -/
def Obligations.PushWritesThePixelAtItsDestination : Prop :=
  ∀ s : State, s.seq = .encoding → (s.mapEntry s.adim s.idx.toNat).toNat < s.adim.entries →
    s.idx.toNat + 1 < s.adim.entries →
    ∃ t, exec .push s = .next t ∧
      (let d := (s.mapEntry s.adim s.idx.toNat).toNat
       let q := quantize s.afmt s.pix
       t.outByte (2 * d) = some (q.extractLsb' 0 8) ∧ t.outByte (2 * d + 1) = some (q.extractLsb' 8 8) ∧
       t.marked (2 * d) = true ∧ t.marked (2 * d + 1) = true ∧
       (∀ o, o ≠ 2 * d → o ≠ 2 * d + 1 → t.outByte o = s.outByte o ∧ t.marked o = s.marked o) ∧
       t.idx.toNat = s.idx.toNat + 1 ∧
       t = { s with out := t.out, wr := t.wr, qout := q, idx := t.idx })

/-- PUSH (R98, R100) of the last pixel: as any other, and in the same step STATE becomes IDLE and BVALID 1. -/
def Obligations.TheLastPushCompletesTheBlob : Prop :=
  ∀ s : State, s.seq = .encoding → (s.mapEntry s.adim s.idx.toNat).toNat < s.adim.entries →
    s.idx.toNat + 1 = s.adim.entries →
    ∃ t, exec .push s = .next t ∧
      (let d := (s.mapEntry s.adim s.idx.toNat).toNat
       let q := quantize s.afmt s.pix
       t.outByte (2 * d) = some (q.extractLsb' 0 8) ∧ t.outByte (2 * d + 1) = some (q.extractLsb' 8 8) ∧
       t.marked (2 * d) = true ∧ t.marked (2 * d + 1) = true ∧
       (∀ o, o ≠ 2 * d → o ≠ 2 * d + 1 → t.outByte o = s.outByte o ∧ t.marked o = s.marked o) ∧
       t.idx.toNat = s.adim.entries ∧
       t = { s with out := t.out, wr := t.wr, qout := q, idx := t.idx, seq := .idle, bvalid := true })

/-- R104: a table entry that is no destination raises DestOutOfRange with the entry and the index, and writes nothing of
the pixel: OUT, WR, IDX and QOUT are as before. -/
def Obligations.PushOfAnEntryOutOfRangeIsDestOutOfRange : Prop :=
  ∀ s : State, s.seq = .encoding → s.adim.entries ≤ (s.mapEntry s.adim s.idx.toNat).toNat →
    exec .push s = .next { s with
      err := .destOutOfRange, errsub := BitVec.ofNat 4 s.adim.code.toNat,
      errinfo := s.mapEntry s.adim s.idx.toNat ++ s.idx, seq := .error, bvalid := false }

/-- R102: a complete encode with a bijective table. Every source pixel's two bytes stand at its destination, every byte
of the blob is marked, and a 16-bit window read of a destination returns its pixel word. -/
def Obligations.CompleteEncodeGivesThePermutedBlob : Prop :=
  ∀ (c : Config) (b : Dim) (ps : List Word) (s : State), ps.length = b.entries → s.seq = .idle →
    s.loaded.get b = true → s.Bijective b →
    ∃ t, serve c (encodeTxns b (BitVec.ofNat 16 b.width) (BitVec.ofNat 16 b.height) ps) s = .next t ∧
      t.seq = .idle ∧ t.bvalid = true ∧ t.adim = b ∧ t.idx.toNat = b.entries ∧ t.err = s.err ∧
      (∀ o, o < b.blobBytes → t.marked o = true) ∧
      ∀ x, (h : x < ps.length) →
        (let d := s.mapEntry b x
         let q := quantize b.format ps[x]
         t.outByte (2 * d.toNat) = some (q.extractLsb' 0 8) ∧
         t.outByte (2 * d.toNat + 1) = some (q.extractLsb' 8 8) ∧
         transact c (.read (windowOffset (BitVec.ofNat 16 (2 * d.toNat))) .w16) t =
           .next { t with reply := some (q.setWidth 32) })

/-- R103: a complete encode with entries in range, bijective or not. The largest source index that names a destination
wins, a destination no entry names stays unwritten and a read of either of its bytes faults, and no error is raised. -/
def Obligations.TheLargestSourceIndexWins : Prop :=
  ∀ (c : Config) (b : Dim) (ps : List Word) (s : State), ps.length = b.entries → s.seq = .idle →
    s.loaded.get b = true → (∀ x, x < b.entries → (s.mapEntry b x).toNat < b.entries) →
    ∃ t, serve c (encodeTxns b (BitVec.ofNat 16 b.width) (BitVec.ofNat 16 b.height) ps) s = .next t ∧
      t.seq = .idle ∧ t.bvalid = true ∧ t.err = s.err ∧
      (∀ x, (h : x < ps.length) → (∀ y, x < y → y < ps.length → s.mapEntry b y ≠ s.mapEntry b x) →
        (let d := (s.mapEntry b x).toNat
         let q := quantize b.format ps[x]
         t.outByte (2 * d) = some (q.extractLsb' 0 8) ∧ t.outByte (2 * d + 1) = some (q.extractLsb' 8 8))) ∧
      (∀ d, d < b.entries → (∀ x, x < b.entries → (s.mapEntry b x).toNat ≠ d) →
        t.marked (2 * d) = false ∧ t.marked (2 * d + 1) = false ∧
        transact c (.read (windowOffset (BitVec.ofNat 16 (2 * d))) .w8) t = .fault (.unwrittenRead (2 * d)) ∧
        transact c (.read (windowOffset (BitVec.ofNat 16 (2 * d + 1))) .w8) t = .fault (.unwrittenRead (2 * d + 1)))

/-- A command that is not PUSH leaves every byte of OUT, one that is neither START nor PUSH every mark, one that is not
MAPENTRY every table entry, and one that is neither QUANT nor PUSH leaves QOUT. -/
def Obligations.OnlyTheRulesWritersWriteTheMemories : Prop :=
  ∀ (i : Instr) (s t : State), exec i s = .next t →
    (i ≠ .push → ∀ o, t.outByte o = s.outByte o) ∧
    (i ≠ .push → (∀ b, i ≠ startOf b) → ∀ o, t.marked o = s.marked o) ∧
    ((∀ v, i ≠ .mapentry v) → ∀ b j, cellRead (t.map.get b) j = cellRead (s.map.get b) j) ∧
    (i ≠ .push → (∀ f, i ≠ quantOf f) → t.qout = s.qout)

/-- R136: every command but START and PUSH, unless it raises an error, leaves a valid blob valid, in place and readable,
byte for byte. -/
def Obligations.AValidBlobStaysReadable : Prop :=
  ∀ (i : Instr) (s t : State), i ≠ .push → (∀ b, i ≠ startOf b) → s.bvalid = true → s.seq ≠ .error →
    exec i s = .next t → t.seq ≠ .error →
    t.bvalid = true ∧ t.adim = s.adim ∧
    ∀ (c : Config) (o : BitVec 16) (w : Width),
      (∀ v, transact c (.read (windowOffset o) w) s = .next { s with reply := some v } →
        transact c (.read (windowOffset o) w) t = .next { t with reply := some v }) ∧
      (∀ f, transact c (.read (windowOffset o) w) s = .fault f → transact c (.read (windowOffset o) w) t = .fault f)

/-- R16, R100: with a bijective table a valid blob is read whole, and is 2N(ADIM) bytes long. Over every state of the
invariant. -/
def Obligations.ABijectiveBlobIsReadWhole : Prop :=
  ∀ s : State, s.Inv → s.bvalid = true → s.Bijective s.adim →
    ∃ bs, s.output = some bs ∧ bs.length = 2 * s.adim.entries ∧ ∀ k, (h : k < bs.length) → s.outByte k = some bs[k]

/-! ### The host bus -/

/-- R30 to R39: what a 32-bit read of each register returns, and that it changes nothing of the block. -/
def Obligations.RegisterReadsReturnTheirContent : Prop :=
  ∀ (c : Config) (s : State),
    (let rd := fun (a : Offset) => transact c (.read a .w32) s
     let gives := fun (v : Word) => (Host.Outcome.next { s with reply := some v } : Host.Outcome State Fault Refusal)
     rd 0x00 = gives 0 ∧ rd 0x04 = gives s.pix ∧ rd 0x08 = gives s.imgdim ∧ rd 0x0C = gives (0#16 ++ s.qout) ∧
     rd 0x10 = gives s.status ∧ rd 0x14 = gives (0#16 ++ s.idx) ∧ rd 0x18 = gives (0#16 ++ s.lcnt) ∧
     rd 0x1C = gives s.errinfo ∧ rd 0x20 = gives 0x54505131 ∧
     ∀ a : Offset, 0x24 ≤ a.toNat → a.toNat < 0x10000 → a.toNat % 4 = 0 → rd a = gives 0)

/-- R35: the fields of STATUS, its reserved bits reading 0, with the numbers of STATE (R20), of ERR (R108), of the banks
(R70) and of the formats (R71). -/
def Obligations.StatusHoldsTheFieldsOfTheState : Prop :=
  ∀ s : State,
    (let bank := fun (b : Dim) => (match b with | .d24 => 0 | .d48 => 1 | .d256 => 2 : BitVec 2)
     s.status.extractLsb' 0 3 = (match s.seq with | .idle => 0 | .loading => 1 | .encoding => 2 | .error => 7) ∧
     s.status.extractLsb' 3 1 = bit s.bvalid ∧
     s.status.extractLsb' 4 4 = (match s.err with
       | .none => 0 | .dimensionError => 1 | .resourceError => 2 | .illegalCommand => 3 | .sequenceError => 4
       | .mapImmutable => 5 | .destOutOfRange => 6) ∧
     s.status.extractLsb' 8 4 = s.errsub ∧
     s.status.extractLsb' 12 1 = bit (s.loaded.get .d24) ∧ s.status.extractLsb' 13 1 = bit (s.loaded.get .d48) ∧
     s.status.extractLsb' 14 1 = bit (s.loaded.get .d256) ∧ s.status.extractLsb' 15 1 = 0 ∧
     s.status.extractLsb' 16 2 = bank s.adim ∧
     s.status.extractLsb' 18 1 = (match s.afmt with | .rgb565 => 0 | .rgba4444 => 1) ∧
     s.status.extractLsb' 19 1 = 0 ∧ s.status.extractLsb' 20 2 = bank s.lbank ∧
     s.status.extractLsb' 22 1 = bit s.vdone ∧ s.status.extractLsb' 23 1 = bit s.vok ∧
     s.status.extractLsb' 24 2 = bank s.vbank ∧ s.status.extractLsb' 26 6 = 0)

/-- R32, R33: a 32-bit write of PIX or IMGDIM sets all its bits in every STATE, ERROR included, and changes nothing
else. -/
def Obligations.OperandWritesAreTakenInEveryState : Prop :=
  ∀ (c : Config) (v : Word) (s : State),
    transact c (.write 0x04 .w32 v) s = .next { s with pix := v, reply := none } ∧
    transact c (.write 0x08 .w32 v) s = .next { s with imgdim := v, reply := none }

/-- R39, R54: a write of a read-only register, of a reserved offset or of the OUT window, of legal width and alignment,
changes no state; a read of CMD returns 0. That an aligned 8-bit or 16-bit write of the window is such a write is the
model's reading of R54 (log entry 5). -/
def Obligations.IgnoredWritesChangeNothing : Prop :=
  ∀ (c : Config) (s : State),
    (∀ (a : Offset) (v : Word), a.toNat < 0x10000 → a.toNat % 4 = 0 → a ≠ 0x00 → a ≠ 0x04 → a ≠ 0x08 →
      transact c (.write a .w32 v) s = .next { s with reply := none }) ∧
    (∀ (a : Offset) (w : Width) (v : Word), 0x10000 ≤ a.toNat → w ≠ .wider → a.toNat % w.bytes = 0 →
      transact c (.write a w v) s = .next { s with reply := none }) ∧
    transact c (.read 0x00 .w32) s = .next { s with reply := some 0 }

/-- R53: a read, a register write and any write wider than 32 bits are a bus error exactly when the rule lists them. The
rule lists no window write of at most 32 bits: that a misaligned one is a bus error, and no other, is the model's reading
of R54 (log entries 4 and 5). A bus error changes no state; that a host which goes on does so from the state before is the
model's `session` (log entry 3). -/
def Obligations.BusErrorsAreExactlyTheListedAccesses : Prop :=
  ∀ (c : Config) (s : State),
    (∀ (a : Offset) (w : Width), transact c (.read a w) s = .fault .busError ↔
      (a.toNat < 0x10000 ∧ (w = .w8 ∨ w = .w16)) ∨ (a.toNat < 0x10000 ∧ a.toNat % 4 ≠ 0) ∨
      (0x10000 ≤ a.toNat ∧ (a.toNat - 0x10000) % w.bytes ≠ 0) ∨ w = .wider) ∧
    (∀ (a : Offset) (w : Width) (v : Word), a.toNat < 0x10000 ∨ w = .wider →
      (transact c (.write a w v) s = .fault .busError ↔
        w = .w8 ∨ w = .w16 ∨ a.toNat % 4 ≠ 0 ∨ w = .wider)) ∧
    (∀ (a : Offset) (w : Width) (v : Word), 0x10000 ≤ a.toNat → w ≠ .wider →
      (transact c (.write a w v) s = .fault .busError ↔ (a.toNat - 0x10000) % w.bytes ≠ 0)) ∧
    (∀ x, transact c x s = .fault .busError → session c [x] s = ([.fault .busError], s))

/-- The model's reading of R54 (log entry 4): a window WRITE that is not aligned to its width is a bus error too. -/
def Obligations.MisalignedWindowWriteIsABusError : Prop :=
  ∀ (c : Config) (s : State) (a : Offset) (w : Width) (v : Word), 0x10000 ≤ a.toNat → a.toNat % w.bytes ≠ 0 →
    transact c (.write a w v) s = .fault .busError

/-- R51, R56: an aligned window read whose bytes are all admitted returns them, least significant first, zero-extended,
and changes no state of the block. Over every state of the invariant. -/
def Obligations.AdmittedWindowReadReturnsTheBytes : Prop :=
  ∀ (c : Config) (s : State) (o : BitVec 16) (w : Width), s.Inv → w ≠ .wider → o.toNat % w.bytes = 0 →
    s.bvalid = true → o.toNat + w.bytes ≤ 2 * s.adim.entries →
    (∀ k, k < w.bytes → s.marked (o.toNat + k) = true) →
    ∃ v, transact c (.read (windowOffset o) w) s = .next { s with reply := some v } ∧
      (∀ k, k < w.bytes → s.outByte (o.toNat + k) = some (v.extractLsb' (8 * k) 8)) ∧ v.toNat < 2 ^ (8 * w.bytes)

/-- R57: an aligned window read with BVALID = 0 is the fault BlobNotReady, during an encode, after an error and after
reset. -/
def Obligations.WindowReadWithoutABlobFaults : Prop :=
  (∀ (c : Config) (s : State) (o : BitVec 16) (w : Width), w ≠ .wider → o.toNat % w.bytes = 0 → s.bvalid = false →
    transact c (.read (windowOffset o) w) s = .fault .blobNotReady) ∧
  (∀ s : State, s.Inv → s.seq = .encoding ∨ s.seq = .error → s.bvalid = false) ∧
  State.reset.bvalid = false

/-- R58: with BVALID = 1, an aligned window read that covers an unreadable byte is the fault UnwrittenRead of such a byte;
and when the table is a bijection no byte of the blob is unreadable. Over every state of the invariant. That the byte
named is the lowest one is the model's choice (log entry 6) and is not claimed here. -/
def Obligations.WindowReadOfAnUnwrittenByteFaults : Prop :=
  ∀ s : State, s.Inv → s.bvalid = true →
    (∀ (c : Config) (o : BitVec 16) (w : Width), w ≠ .wider → o.toNat % w.bytes = 0 →
      (∃ k, k < w.bytes ∧ (2 * s.adim.entries ≤ o.toNat + k ∨ s.marked (o.toNat + k) = false)) →
      ∃ p, transact c (.read (windowOffset o) w) s = .fault (.unwrittenRead p) ∧ o.toNat ≤ p ∧
        p < o.toNat + w.bytes ∧ (2 * s.adim.entries ≤ p ∨ s.marked p = false)) ∧
    (s.Bijective s.adim → ∀ o, o < 2 * s.adim.entries → s.marked o = true)

/-- R60: a read has no effect on the block and is idempotent: read again, with nothing written between, it gives the same
value or the same fault. -/
def Obligations.ReadsAreFreeOfSideEffects : Prop :=
  ∀ (c : Config) (s t : State) (a : Offset) (w : Width),
    (transact c (.read a w) s = .next t → t = { s with reply := t.reply } ∧ t.reply ≠ none) ∧
    ∀ (a' : Offset) (w' : Width), transact c (.read a w) s = .next t →
      (∀ u, transact c (.read a' w') s = .next u → transact c (.read a' w') t = .next u) ∧
      (∀ f, transact c (.read a' w') s = .fault f → transact c (.read a' w') t = .fault f)

/-- R128: a fault of the host's run does not affect a later access: a host that goes on gets from the rest of its
transactions what it would have got without the faulting one. That it goes on from the state before the access is how the
model's `session` is defined (log entry 3), whatever `transact` does; that no fault of `transact` carries a state is the
same choice. -/
def Obligations.HostFaultsDoNotAffectLaterAccesses : Prop :=
  ∀ (c : Config) (xs : List HostTxn) (x : HostTxn) (ys : List HostTxn) (s : State) (f : Fault),
    transact c x (session c xs s).2 = .fault f →
    session c (xs ++ x :: ys) s =
      ((session c xs s).1 ++ .fault f :: (session c ys (session c xs s).2).1,
       (session c ys (session c xs s).2).2)

/-- R137: reading, writing PIX or IMGDIM, QUANT and NOP leave a load or an encode in progress as it is, in any STATE. -/
def Obligations.TheHostsLibertiesDisturbNothing : Prop :=
  ∀ (c : Config) (x : HostTxn) (s t : State),
    ((∃ a w, x = .read a w) ∨ (∃ w v, x = .write 0x04 w v) ∨ (∃ w v, x = .write 0x08 w v) ∨
      (∃ f, x = .write 0x00 .w32 (encode (quantOf f))) ∨ x = .write 0x00 .w32 (encode .nop)) →
    transact c x s = .next t →
    t = { s with pix := t.pix, imgdim := t.imgdim, qout := t.qout, reply := t.reply }

/-- R80, R120, R139: one read of STATUS ends WAITVALID when a blob is complete or an error was raised, and no number of
reads ends it otherwise. -/
def Obligations.WaitvalidEndsAtOnceOrNever : Prop :=
  ∀ (c : Config) (s : State) (n : Nat),
    (s.bvalid = true ∨ s.seq = .error → waitValid c (n + 1) s = some s.status) ∧
    (s.bvalid = false → s.seq ≠ .error → waitValid c n s = none)

/-- R79, R80: a mnemonic's line is the write of its word to CMD; `START dK, fmt` is accepted exactly when fmt is the
format R75 pairs with dK; WR, RD, RDB, RDH and RDW are their host accesses; and each pseudo-instruction is its expansion.
That WAITVALID's line is one read of STATUS, and that a list of the wrong length is refused, is the model's choice (log
entry 16). -/
def Obligations.AssemblerLinesAreTheirWords : Prop :=
  (∀ i, (AsmLine.command i).assemble = some [.write 0x00 .w32 (encode i)]) ∧
  (∀ b f, (AsmLine.startAs b f).assemble = if (b = .d256 ↔ f = .rgba4444)
    then some [.write 0x00 .w32 (encode (startOf b))] else none) ∧
  (∀ r a, (r, a) ∈ [(RegName.cmd, (0x00 : Offset)), (.pix, 0x04), (.imgdim, 0x08), (.qout, 0x0C), (.status, 0x10),
      (.idx, 0x14), (.lcnt, 0x18), (.errinfo, 0x1C), (.id, 0x20)] →
    (∀ v, (AsmLine.wr r v).assemble = some [.write a .w32 v]) ∧ (AsmLine.rd r).assemble = some [.read a .w32]) ∧
  (∀ w o, (AsmLine.rdWindow w o).assemble = some [.read (BitVec.ofNat 17 (0x10000 + o.toNat)) w]) ∧
  (∀ f p, (AsmLine.qpix f p).assemble = some [.write 0x04 .w32 p, .write 0x00 .w32 (encode (quantOf f))]) ∧
  (∀ p, (AsmLine.pushPix p).assemble = some [.write 0x04 .w32 p, .write 0x00 .w32 (encode .push)]) ∧
  (∀ b ts, (AsmLine.loadMap b ts).assemble = if ts.length = b.entries
    then some ([.write 0x00 .w32 (encode (mapbeginOf b))] ++
      ts.map (fun v => .write 0x00 .w32 (encode (.mapentry v))) ++ [.write 0x00 .w32 (encode .mapend)])
    else none) ∧
  (∀ b w h ps, (AsmLine.encode b w h ps).assemble = if ps.length = b.entries
    then some ([.write 0x08 .w32 (BitVec.ofNat 32 (w.toNat * 2 ^ 16 + h.toNat)), .write 0x00 .w32 (encode (startOf b))] ++
      ps.flatMap (fun p => [.write 0x04 .w32 p, .write 0x00 .w32 (encode .push)]))
    else none) ∧
  AsmLine.waitValid.assemble = some [.read 0x10 .w32]

/-- R119: how a host reports each error, and that a run in ERROR gives it no blob. -/
def Obligations.ErrorsReportAsTheDocumentsCodes : Prop :=
  (∀ e : ErrCode, e.code = 1 → e.report = .dimensionError) ∧ (∀ e : ErrCode, e.code = 2 → e.report = .resourceError) ∧
  (∀ e : ErrCode, e.code = 6 → e.report = .resourceError) ∧
  (∀ e : ErrCode, e.code = 3 ∨ e.code = 4 ∨ e.code = 5 → e.report = .internalFailure) ∧
  (∀ s : State, s.seq = .error → s.output = none)

/-! ### Reset and the invariant -/

/-- R44, R130: the state after reset, and STATUS reading 0. MAP, OUT and the model's own fields, for which the spec states
no value, are left out. -/
def Obligations.ResetStateHoldsTheStatedValues : Prop :=
  (let r := State.reset
   r.seq = .idle ∧ r.bvalid = false ∧ r.err = .none ∧ r.errsub = 0 ∧ r.errinfo = 0x00000000 ∧
   r.loaded.get .d24 = false ∧ r.loaded.get .d48 = false ∧ r.loaded.get .d256 = false ∧
   r.lbank.code = 0 ∧ r.lcnt = 0 ∧ r.adim.code = 0 ∧ r.afmt.code = 0 ∧ r.idx = 0 ∧
   r.vdone = false ∧ r.vok = false ∧ r.vbank.code = 0 ∧ r.pix = 0x00000000 ∧ r.imgdim = 0x00000000 ∧
   r.qout = 0 ∧ (∀ o, r.marked o = false) ∧ r.status = 0x00000000)

/-- R129: reset from any state, ERROR and a load or encode in progress included, gives the reset state. Of that state the
model chose: MAP and OUT, which R44 leaves unspecified, list nothing (log entries 7 and 8), no value is returned (log entry
2), and the host's transactions still to come stay (log entry 12). -/
def Obligations.ResetLeavesEveryState : Prop :=
  ∀ (c : Config) (s : State), transact c .reset s = .next { State.reset with inbox := s.inbox }

/-- The invariant holds at reset. -/
def Obligations.ResetStateMeetsTheInvariant : Prop := State.reset.Inv

/-- Every step, of either configuration, keeps the invariant: the memories stay canonical and in range, the counts stay
within N, a loaded bank stays full, WR marks exactly the bytes pushed, a valid blob is complete, VOK stays true of its
bank, and there is an error record exactly in ERROR. -/
def Obligations.EveryStepKeepsTheInvariant : Prop :=
  (∀ s t : State, s.Inv → step s = .next t → t.Inv) ∧
  (∀ (c : Config) (s t : State), s.Inv → serveNext c s = .next t → t.Inv)

/-! ### Several instances -/

/-- R125, R129: a host access changes at most one instance, one that decodes its address, by that instance's own
transaction; a reset of instance k changes that instance alone, to its reset state (with the model's choices of log entries
2, 7, 8 and 12); and at power-on every instance is at its own base in the reset state. That one instance answers where
windows overlap is the model's choice (log entry 11). -/
def Obligations.InstancesShareNothing : Prop :=
  (∀ (addr : Nat) (x : BusAccess) (p p' : Platform), Platform.access addr x p = some (.next p') →
    ∃ k q a t, p[k]? = some q ∧ q.offset addr = some a ∧ transact q.cfg (x.at a) q.st = .next t ∧
      p' = p.set k { q with st := t }) ∧
  (∀ (k : Nat) (p : Platform),
    (∀ q, p[k]? = some q → (Platform.resetAt k p)[k]? = some { q with st := { State.reset with inbox := q.st.inbox } }) ∧
    (∀ j, j ≠ k → (Platform.resetAt k p)[j]? = p[j]?)) ∧
  (∀ (places : List (Nat × Config)) (k : Nat),
    (Platform.start places)[k]? = (places[k]?).map (fun (b, c) => { base := b, cfg := c, st := State.reset }))

/-- R142: accesses to different instances give the same platform in either order. -/
def Obligations.AccessesToDifferentInstancesCommute : Prop :=
  ∀ (addr addr' : Nat) (x x' : BusAccess) (p p₁ p₂ : Platform),
    (∀ q ∈ p, q.offset addr = none ∨ q.offset addr' = none) →
    Platform.access addr x p = some (.next p₁) → Platform.access addr' x' p = some (.next p₂) →
    ∃ p₃, Platform.access addr' x' p₁ = some (.next p₃) ∧ Platform.access addr x p₂ = some (.next p₃)

/-! ### Unfinished runs -/

/-- R139, R137: a load or an encode the host does not go on with is stuck. With nothing but the host's liberties, however
many, STATE stays LOADING or ENCODING and nothing is counted; with nothing at all the whole state stays; BVALID stays 0 in
an encode, over the states of the invariant; and at no point is the run a success. -/
def Obligations.AnUnfinishedRunIsStuckAndNoSuccess : Prop :=
  ∀ s : State, s.unfinished →
    ¬ s.succeeded ∧
    (s.Inv → s.seq = .encoding → s.bvalid = false) ∧
    (s.inbox = [] → ∀ k, Sys2Proof.core.run k s = .next s) ∧
    ∀ (c : Config) (xs : List HostTxn) (t : State),
      (∀ x ∈ xs, (∃ a w, x = .read a w) ∨ (∃ w v, x = .write 0x04 w v) ∨ (∃ w v, x = .write 0x08 w v) ∨
        (∃ f, x = .write 0x00 .w32 (encode (quantOf f))) ∨ x = .write 0x00 .w32 (encode .nop)) →
      serve c xs s = .next t →
      t.seq = s.seq ∧ t.bvalid = s.bvalid ∧ t.lcnt = s.lcnt ∧ t.idx = s.idx ∧ ¬ t.succeeded
end

