-- ==== Sys2Proof/Laws/Decode.lean ====
section
/-! SUPPORT. The fields of a command word as numbers, and a word from its fields: the arithmetic that the decode and
the encoder rest on (spec/30_encoding.md R68). -/

namespace Sys2Proof

theorem op_toNat (c : Word) : (Word.op c).toNat = c.toNat / 2 ^ 28 := by
  have := c.isLt
  rw [Word.op, BitVec.extractLsb'_toNat, Nat.shiftRight_eq_div_pow]
  omega

theorem dim_toNat (c : Word) : (Word.dim c).toNat = c.toNat / 2 ^ 26 % 4 := by
  rw [Word.dim, BitVec.extractLsb'_toNat, Nat.shiftRight_eq_div_pow]

theorem fmt_toNat (c : Word) : (Word.fmt c).toNat = c.toNat / 2 ^ 25 % 2 := by
  rw [Word.fmt, BitVec.extractLsb'_toNat, Nat.shiftRight_eq_div_pow]

theorem rz_toNat (c : Word) : (Word.rz c).toNat = c.toNat / 2 ^ 16 % 512 := by
  rw [Word.rz, BitVec.extractLsb'_toNat, Nat.shiftRight_eq_div_pow]

theorem imm_toNat (c : Word) : (Word.imm c).toNat = c.toNat % 2 ^ 16 := by
  rw [Word.imm, BitVec.extractLsb'_toNat, Nat.shiftRight_zero]

/-- An append as a number. -/
theorem append_toNat {n m : Nat} (x : BitVec n) (y : BitVec m) : (x ++ y).toNat = x.toNat * 2 ^ m + y.toNat := by
  rw [BitVec.toNat_append, ← Nat.shiftLeft_add_eq_or_of_lt y.isLt, Nat.shiftLeft_eq]

/-- A word from its fields as a number; RZ is zero. -/
theorem wordOf_toNat (op : BitVec 4) (dim : BitVec 2) (fmt : BitVec 1) (imm : BitVec 16) :
    (wordOf op dim fmt imm).toNat = op.toNat * 2 ^ 28 + dim.toNat * 2 ^ 26 + fmt.toNat * 2 ^ 25 + imm.toNat := by
  unfold wordOf
  rw [append_toNat, append_toNat, append_toNat, append_toNat]
  simp only [BitVec.toNat_ofNat]
  omega

@[simp] theorem op_wordOf (op : BitVec 4) (dim : BitVec 2) (fmt : BitVec 1) (imm : BitVec 16) :
    Word.op (wordOf op dim fmt imm) = op := by
  have := op.isLt; have := dim.isLt; have := fmt.isLt; have := imm.isLt
  apply BitVec.eq_of_toNat_eq
  rw [op_toNat, wordOf_toNat]
  omega

@[simp] theorem dim_wordOf (op : BitVec 4) (dim : BitVec 2) (fmt : BitVec 1) (imm : BitVec 16) :
    Word.dim (wordOf op dim fmt imm) = dim := by
  have := op.isLt; have := dim.isLt; have := fmt.isLt; have := imm.isLt
  apply BitVec.eq_of_toNat_eq
  rw [dim_toNat, wordOf_toNat]
  omega

@[simp] theorem fmt_wordOf (op : BitVec 4) (dim : BitVec 2) (fmt : BitVec 1) (imm : BitVec 16) :
    Word.fmt (wordOf op dim fmt imm) = fmt := by
  have := op.isLt; have := dim.isLt; have := fmt.isLt; have := imm.isLt
  apply BitVec.eq_of_toNat_eq
  rw [fmt_toNat, wordOf_toNat]
  omega

@[simp] theorem rz_wordOf (op : BitVec 4) (dim : BitVec 2) (fmt : BitVec 1) (imm : BitVec 16) :
    Word.rz (wordOf op dim fmt imm) = 0 := by
  have := op.isLt; have := dim.isLt; have := fmt.isLt; have := imm.isLt
  apply BitVec.eq_of_toNat_eq
  rw [rz_toNat, wordOf_toNat]
  show _ = 0
  omega

@[simp] theorem imm_wordOf (op : BitVec 4) (dim : BitVec 2) (fmt : BitVec 1) (imm : BitVec 16) :
    Word.imm (wordOf op dim fmt imm) = imm := by
  have := op.isLt; have := dim.isLt; have := fmt.isLt; have := imm.isLt
  apply BitVec.eq_of_toNat_eq
  rw [imm_toNat, wordOf_toNat]
  omega

/-- A word with RZ zero is the word of its fields. -/
theorem wordOf_fields (c : Word) (h : Word.rz c = 0) :
    wordOf (Word.op c) (Word.dim c) (Word.fmt c) (Word.imm c) = c := by
  have hz : (Word.rz c).toNat = 0 := by rw [h]; rfl
  rw [rz_toNat] at hz
  apply BitVec.eq_of_toNat_eq
  rw [wordOf_toNat, op_toNat, dim_toNat, fmt_toNat, imm_toNat]
  have := c.isLt
  omega

/-- A dimension's code names it (R70). -/
@[simp] theorem ofCode_code (b : Dim) : Dim.ofCode b.code = some b := by cases b <;> rfl

end Sys2Proof
end

