-- ==== Sys2Proof/Laws/State.lean ====
section
/-! SUPPORT. What each named update of the state does to each field, so that no proof unfolds a record update. -/

namespace Sys2Proof.Machine

open Sys2Proof

variable (s : State)

/-! ### Banks -/

@[simp] theorem Banks.get_set_same {α : Type} (x : Banks α) (b : Dim) (v : α) : (x.set b v).get b = v := by
  cases b <;> rfl

@[simp] theorem Banks.get_set_other {α : Type} (x : Banks α) {b c : Dim} (v : α) (h : c ≠ b) :
    (x.set b v).get c = x.get c := by
  cases b <;> cases c <;> first | rfl | exact absurd rfl h

theorem Banks.ext_get {α : Type} {x y : Banks α} (h : ∀ b, x.get b = y.get b) : x = y := by
  cases x; cases y
  have h0 := h .d24
  have h1 := h .d48
  have h2 := h .d256
  simp only [Banks.get] at h0 h1 h2
  rw [h0, h1, h2]

/-! ### `raiseError`: error entry (R112) -/

@[simp] theorem State.raiseError_seq (c : ErrCode) (n : BitVec 4) (v : Word) : (s.raiseError c n v).seq = .error := rfl
@[simp] theorem State.raiseError_bvalid (c : ErrCode) (n : BitVec 4) (v : Word) : (s.raiseError c n v).bvalid = false := rfl
@[simp] theorem State.raiseError_err (c : ErrCode) (n : BitVec 4) (v : Word) : (s.raiseError c n v).err = c := rfl
@[simp] theorem State.raiseError_errsub (c : ErrCode) (n : BitVec 4) (v : Word) : (s.raiseError c n v).errsub = n := rfl
@[simp] theorem State.raiseError_errinfo (c : ErrCode) (n : BitVec 4) (v : Word) : (s.raiseError c n v).errinfo = v := rfl
@[simp] theorem State.raiseError_loaded (c : ErrCode) (n : BitVec 4) (v : Word) : (s.raiseError c n v).loaded = s.loaded := rfl
@[simp] theorem State.raiseError_map (c : ErrCode) (n : BitVec 4) (v : Word) : (s.raiseError c n v).map = s.map := rfl
@[simp] theorem State.raiseError_lbank (c : ErrCode) (n : BitVec 4) (v : Word) : (s.raiseError c n v).lbank = s.lbank := rfl
@[simp] theorem State.raiseError_lcnt (c : ErrCode) (n : BitVec 4) (v : Word) : (s.raiseError c n v).lcnt = s.lcnt := rfl
@[simp] theorem State.raiseError_adim (c : ErrCode) (n : BitVec 4) (v : Word) : (s.raiseError c n v).adim = s.adim := rfl
@[simp] theorem State.raiseError_afmt (c : ErrCode) (n : BitVec 4) (v : Word) : (s.raiseError c n v).afmt = s.afmt := rfl
@[simp] theorem State.raiseError_idx (c : ErrCode) (n : BitVec 4) (v : Word) : (s.raiseError c n v).idx = s.idx := rfl
@[simp] theorem State.raiseError_out (c : ErrCode) (n : BitVec 4) (v : Word) : (s.raiseError c n v).out = s.out := rfl
@[simp] theorem State.raiseError_wr (c : ErrCode) (n : BitVec 4) (v : Word) : (s.raiseError c n v).wr = s.wr := rfl
@[simp] theorem State.raiseError_vdone (c : ErrCode) (n : BitVec 4) (v : Word) : (s.raiseError c n v).vdone = s.vdone := rfl
@[simp] theorem State.raiseError_vok (c : ErrCode) (n : BitVec 4) (v : Word) : (s.raiseError c n v).vok = s.vok := rfl
@[simp] theorem State.raiseError_vbank (c : ErrCode) (n : BitVec 4) (v : Word) : (s.raiseError c n v).vbank = s.vbank := rfl
@[simp] theorem State.raiseError_pix (c : ErrCode) (n : BitVec 4) (v : Word) : (s.raiseError c n v).pix = s.pix := rfl
@[simp] theorem State.raiseError_imgdim (c : ErrCode) (n : BitVec 4) (v : Word) : (s.raiseError c n v).imgdim = s.imgdim := rfl
@[simp] theorem State.raiseError_qout (c : ErrCode) (n : BitVec 4) (v : Word) : (s.raiseError c n v).qout = s.qout := rfl
@[simp] theorem State.raiseError_inbox (c : ErrCode) (n : BitVec 4) (v : Word) : (s.raiseError c n v).inbox = s.inbox := rfl
@[simp] theorem State.raiseError_reply (c : ErrCode) (n : BitVec 4) (v : Word) : (s.raiseError c n v).reply = s.reply := rfl

/-! ### `beginLoad`: MAPBEGIN (R81) -/

@[simp] theorem State.beginLoad_seq (b : Dim) : (s.beginLoad b).seq = .loading := rfl
@[simp] theorem State.beginLoad_bvalid (b : Dim) : (s.beginLoad b).bvalid = s.bvalid := rfl
@[simp] theorem State.beginLoad_err (b : Dim) : (s.beginLoad b).err = s.err := rfl
@[simp] theorem State.beginLoad_errsub (b : Dim) : (s.beginLoad b).errsub = s.errsub := rfl
@[simp] theorem State.beginLoad_errinfo (b : Dim) : (s.beginLoad b).errinfo = s.errinfo := rfl
@[simp] theorem State.beginLoad_loaded (b : Dim) : (s.beginLoad b).loaded = s.loaded := rfl
@[simp] theorem State.beginLoad_map (b : Dim) : (s.beginLoad b).map = s.map := rfl
@[simp] theorem State.beginLoad_lbank (b : Dim) : (s.beginLoad b).lbank = b := rfl
@[simp] theorem State.beginLoad_lcnt (b : Dim) : (s.beginLoad b).lcnt = 0 := rfl
@[simp] theorem State.beginLoad_adim (b : Dim) : (s.beginLoad b).adim = s.adim := rfl
@[simp] theorem State.beginLoad_afmt (b : Dim) : (s.beginLoad b).afmt = s.afmt := rfl
@[simp] theorem State.beginLoad_idx (b : Dim) : (s.beginLoad b).idx = s.idx := rfl
@[simp] theorem State.beginLoad_out (b : Dim) : (s.beginLoad b).out = s.out := rfl
@[simp] theorem State.beginLoad_wr (b : Dim) : (s.beginLoad b).wr = s.wr := rfl
@[simp] theorem State.beginLoad_vdone (b : Dim) : (s.beginLoad b).vdone = s.vdone := rfl
@[simp] theorem State.beginLoad_vok (b : Dim) : (s.beginLoad b).vok = s.vok := rfl
@[simp] theorem State.beginLoad_vbank (b : Dim) : (s.beginLoad b).vbank = s.vbank := rfl
@[simp] theorem State.beginLoad_pix (b : Dim) : (s.beginLoad b).pix = s.pix := rfl
@[simp] theorem State.beginLoad_imgdim (b : Dim) : (s.beginLoad b).imgdim = s.imgdim := rfl
@[simp] theorem State.beginLoad_qout (b : Dim) : (s.beginLoad b).qout = s.qout := rfl
@[simp] theorem State.beginLoad_inbox (b : Dim) : (s.beginLoad b).inbox = s.inbox := rfl
@[simp] theorem State.beginLoad_reply (b : Dim) : (s.beginLoad b).reply = s.reply := rfl

/-! ### `appendEntry`: MAPENTRY (R82) -/

@[simp] theorem State.appendEntry_seq (v : Entry) : (s.appendEntry v).seq = s.seq := rfl
@[simp] theorem State.appendEntry_bvalid (v : Entry) : (s.appendEntry v).bvalid = s.bvalid := rfl
@[simp] theorem State.appendEntry_err (v : Entry) : (s.appendEntry v).err = s.err := rfl
@[simp] theorem State.appendEntry_errsub (v : Entry) : (s.appendEntry v).errsub = s.errsub := rfl
@[simp] theorem State.appendEntry_errinfo (v : Entry) : (s.appendEntry v).errinfo = s.errinfo := rfl
@[simp] theorem State.appendEntry_loaded (v : Entry) : (s.appendEntry v).loaded = s.loaded := rfl
@[simp] theorem State.appendEntry_map (v : Entry) : (s.appendEntry v).map = s.map.set s.lbank (cellWrite (s.map.get s.lbank) s.lcnt.toNat v) := rfl
@[simp] theorem State.appendEntry_lbank (v : Entry) : (s.appendEntry v).lbank = s.lbank := rfl
@[simp] theorem State.appendEntry_lcnt (v : Entry) : (s.appendEntry v).lcnt = s.lcnt + 1 := rfl
@[simp] theorem State.appendEntry_adim (v : Entry) : (s.appendEntry v).adim = s.adim := rfl
@[simp] theorem State.appendEntry_afmt (v : Entry) : (s.appendEntry v).afmt = s.afmt := rfl
@[simp] theorem State.appendEntry_idx (v : Entry) : (s.appendEntry v).idx = s.idx := rfl
@[simp] theorem State.appendEntry_out (v : Entry) : (s.appendEntry v).out = s.out := rfl
@[simp] theorem State.appendEntry_wr (v : Entry) : (s.appendEntry v).wr = s.wr := rfl
@[simp] theorem State.appendEntry_vdone (v : Entry) : (s.appendEntry v).vdone = s.vdone := rfl
@[simp] theorem State.appendEntry_vok (v : Entry) : (s.appendEntry v).vok = s.vok := rfl
@[simp] theorem State.appendEntry_vbank (v : Entry) : (s.appendEntry v).vbank = s.vbank := rfl
@[simp] theorem State.appendEntry_pix (v : Entry) : (s.appendEntry v).pix = s.pix := rfl
@[simp] theorem State.appendEntry_imgdim (v : Entry) : (s.appendEntry v).imgdim = s.imgdim := rfl
@[simp] theorem State.appendEntry_qout (v : Entry) : (s.appendEntry v).qout = s.qout := rfl
@[simp] theorem State.appendEntry_inbox (v : Entry) : (s.appendEntry v).inbox = s.inbox := rfl
@[simp] theorem State.appendEntry_reply (v : Entry) : (s.appendEntry v).reply = s.reply := rfl

/-! ### `endLoad`: MAPEND (R83) -/

@[simp] theorem State.endLoad_seq : s.endLoad.seq = .idle := rfl
@[simp] theorem State.endLoad_bvalid : s.endLoad.bvalid = s.bvalid := rfl
@[simp] theorem State.endLoad_err : s.endLoad.err = s.err := rfl
@[simp] theorem State.endLoad_errsub : s.endLoad.errsub = s.errsub := rfl
@[simp] theorem State.endLoad_errinfo : s.endLoad.errinfo = s.errinfo := rfl
@[simp] theorem State.endLoad_loaded : s.endLoad.loaded = s.loaded.set s.lbank true := rfl
@[simp] theorem State.endLoad_map : s.endLoad.map = s.map := rfl
@[simp] theorem State.endLoad_lbank : s.endLoad.lbank = s.lbank := rfl
@[simp] theorem State.endLoad_lcnt : s.endLoad.lcnt = s.lcnt := rfl
@[simp] theorem State.endLoad_adim : s.endLoad.adim = s.adim := rfl
@[simp] theorem State.endLoad_afmt : s.endLoad.afmt = s.afmt := rfl
@[simp] theorem State.endLoad_idx : s.endLoad.idx = s.idx := rfl
@[simp] theorem State.endLoad_out : s.endLoad.out = s.out := rfl
@[simp] theorem State.endLoad_wr : s.endLoad.wr = s.wr := rfl
@[simp] theorem State.endLoad_vdone : s.endLoad.vdone = s.vdone := rfl
@[simp] theorem State.endLoad_vok : s.endLoad.vok = s.vok := rfl
@[simp] theorem State.endLoad_vbank : s.endLoad.vbank = s.vbank := rfl
@[simp] theorem State.endLoad_pix : s.endLoad.pix = s.pix := rfl
@[simp] theorem State.endLoad_imgdim : s.endLoad.imgdim = s.imgdim := rfl
@[simp] theorem State.endLoad_qout : s.endLoad.qout = s.qout := rfl
@[simp] theorem State.endLoad_inbox : s.endLoad.inbox = s.inbox := rfl
@[simp] theorem State.endLoad_reply : s.endLoad.reply = s.reply := rfl

/-! ### `recordVerify`: MAPVERIFY (R84) -/

@[simp] theorem State.recordVerify_seq (b : Dim) (ok : Bool) : (s.recordVerify b ok).seq = s.seq := rfl
@[simp] theorem State.recordVerify_bvalid (b : Dim) (ok : Bool) : (s.recordVerify b ok).bvalid = s.bvalid := rfl
@[simp] theorem State.recordVerify_err (b : Dim) (ok : Bool) : (s.recordVerify b ok).err = s.err := rfl
@[simp] theorem State.recordVerify_errsub (b : Dim) (ok : Bool) : (s.recordVerify b ok).errsub = s.errsub := rfl
@[simp] theorem State.recordVerify_errinfo (b : Dim) (ok : Bool) : (s.recordVerify b ok).errinfo = s.errinfo := rfl
@[simp] theorem State.recordVerify_loaded (b : Dim) (ok : Bool) : (s.recordVerify b ok).loaded = s.loaded := rfl
@[simp] theorem State.recordVerify_map (b : Dim) (ok : Bool) : (s.recordVerify b ok).map = s.map := rfl
@[simp] theorem State.recordVerify_lbank (b : Dim) (ok : Bool) : (s.recordVerify b ok).lbank = s.lbank := rfl
@[simp] theorem State.recordVerify_lcnt (b : Dim) (ok : Bool) : (s.recordVerify b ok).lcnt = s.lcnt := rfl
@[simp] theorem State.recordVerify_adim (b : Dim) (ok : Bool) : (s.recordVerify b ok).adim = s.adim := rfl
@[simp] theorem State.recordVerify_afmt (b : Dim) (ok : Bool) : (s.recordVerify b ok).afmt = s.afmt := rfl
@[simp] theorem State.recordVerify_idx (b : Dim) (ok : Bool) : (s.recordVerify b ok).idx = s.idx := rfl
@[simp] theorem State.recordVerify_out (b : Dim) (ok : Bool) : (s.recordVerify b ok).out = s.out := rfl
@[simp] theorem State.recordVerify_wr (b : Dim) (ok : Bool) : (s.recordVerify b ok).wr = s.wr := rfl
@[simp] theorem State.recordVerify_vdone (b : Dim) (ok : Bool) : (s.recordVerify b ok).vdone = true := rfl
@[simp] theorem State.recordVerify_vok (b : Dim) (ok : Bool) : (s.recordVerify b ok).vok = ok := rfl
@[simp] theorem State.recordVerify_vbank (b : Dim) (ok : Bool) : (s.recordVerify b ok).vbank = b := rfl
@[simp] theorem State.recordVerify_pix (b : Dim) (ok : Bool) : (s.recordVerify b ok).pix = s.pix := rfl
@[simp] theorem State.recordVerify_imgdim (b : Dim) (ok : Bool) : (s.recordVerify b ok).imgdim = s.imgdim := rfl
@[simp] theorem State.recordVerify_qout (b : Dim) (ok : Bool) : (s.recordVerify b ok).qout = s.qout := rfl
@[simp] theorem State.recordVerify_inbox (b : Dim) (ok : Bool) : (s.recordVerify b ok).inbox = s.inbox := rfl
@[simp] theorem State.recordVerify_reply (b : Dim) (ok : Bool) : (s.recordVerify b ok).reply = s.reply := rfl

/-! ### `setQout`: QUANT (R94, R95) -/

@[simp] theorem State.setQout_seq (q : QPixel) : (s.setQout q).seq = s.seq := rfl
@[simp] theorem State.setQout_bvalid (q : QPixel) : (s.setQout q).bvalid = s.bvalid := rfl
@[simp] theorem State.setQout_err (q : QPixel) : (s.setQout q).err = s.err := rfl
@[simp] theorem State.setQout_errsub (q : QPixel) : (s.setQout q).errsub = s.errsub := rfl
@[simp] theorem State.setQout_errinfo (q : QPixel) : (s.setQout q).errinfo = s.errinfo := rfl
@[simp] theorem State.setQout_loaded (q : QPixel) : (s.setQout q).loaded = s.loaded := rfl
@[simp] theorem State.setQout_map (q : QPixel) : (s.setQout q).map = s.map := rfl
@[simp] theorem State.setQout_lbank (q : QPixel) : (s.setQout q).lbank = s.lbank := rfl
@[simp] theorem State.setQout_lcnt (q : QPixel) : (s.setQout q).lcnt = s.lcnt := rfl
@[simp] theorem State.setQout_adim (q : QPixel) : (s.setQout q).adim = s.adim := rfl
@[simp] theorem State.setQout_afmt (q : QPixel) : (s.setQout q).afmt = s.afmt := rfl
@[simp] theorem State.setQout_idx (q : QPixel) : (s.setQout q).idx = s.idx := rfl
@[simp] theorem State.setQout_out (q : QPixel) : (s.setQout q).out = s.out := rfl
@[simp] theorem State.setQout_wr (q : QPixel) : (s.setQout q).wr = s.wr := rfl
@[simp] theorem State.setQout_vdone (q : QPixel) : (s.setQout q).vdone = s.vdone := rfl
@[simp] theorem State.setQout_vok (q : QPixel) : (s.setQout q).vok = s.vok := rfl
@[simp] theorem State.setQout_vbank (q : QPixel) : (s.setQout q).vbank = s.vbank := rfl
@[simp] theorem State.setQout_pix (q : QPixel) : (s.setQout q).pix = s.pix := rfl
@[simp] theorem State.setQout_imgdim (q : QPixel) : (s.setQout q).imgdim = s.imgdim := rfl
@[simp] theorem State.setQout_qout (q : QPixel) : (s.setQout q).qout = q := rfl
@[simp] theorem State.setQout_inbox (q : QPixel) : (s.setQout q).inbox = s.inbox := rfl
@[simp] theorem State.setQout_reply (q : QPixel) : (s.setQout q).reply = s.reply := rfl

/-! ### `beginEncode`: START (R97) -/

@[simp] theorem State.beginEncode_seq (b : Dim) (f : Format) : (s.beginEncode b f).seq = .encoding := rfl
@[simp] theorem State.beginEncode_bvalid (b : Dim) (f : Format) : (s.beginEncode b f).bvalid = false := rfl
@[simp] theorem State.beginEncode_err (b : Dim) (f : Format) : (s.beginEncode b f).err = s.err := rfl
@[simp] theorem State.beginEncode_errsub (b : Dim) (f : Format) : (s.beginEncode b f).errsub = s.errsub := rfl
@[simp] theorem State.beginEncode_errinfo (b : Dim) (f : Format) : (s.beginEncode b f).errinfo = s.errinfo := rfl
@[simp] theorem State.beginEncode_loaded (b : Dim) (f : Format) : (s.beginEncode b f).loaded = s.loaded := rfl
@[simp] theorem State.beginEncode_map (b : Dim) (f : Format) : (s.beginEncode b f).map = s.map := rfl
@[simp] theorem State.beginEncode_lbank (b : Dim) (f : Format) : (s.beginEncode b f).lbank = s.lbank := rfl
@[simp] theorem State.beginEncode_lcnt (b : Dim) (f : Format) : (s.beginEncode b f).lcnt = s.lcnt := rfl
@[simp] theorem State.beginEncode_adim (b : Dim) (f : Format) : (s.beginEncode b f).adim = b := rfl
@[simp] theorem State.beginEncode_afmt (b : Dim) (f : Format) : (s.beginEncode b f).afmt = f := rfl
@[simp] theorem State.beginEncode_idx (b : Dim) (f : Format) : (s.beginEncode b f).idx = 0 := rfl
@[simp] theorem State.beginEncode_out (b : Dim) (f : Format) : (s.beginEncode b f).out = s.out := rfl
@[simp] theorem State.beginEncode_wr (b : Dim) (f : Format) : (s.beginEncode b f).wr = [] := rfl
@[simp] theorem State.beginEncode_vdone (b : Dim) (f : Format) : (s.beginEncode b f).vdone = s.vdone := rfl
@[simp] theorem State.beginEncode_vok (b : Dim) (f : Format) : (s.beginEncode b f).vok = s.vok := rfl
@[simp] theorem State.beginEncode_vbank (b : Dim) (f : Format) : (s.beginEncode b f).vbank = s.vbank := rfl
@[simp] theorem State.beginEncode_pix (b : Dim) (f : Format) : (s.beginEncode b f).pix = s.pix := rfl
@[simp] theorem State.beginEncode_imgdim (b : Dim) (f : Format) : (s.beginEncode b f).imgdim = s.imgdim := rfl
@[simp] theorem State.beginEncode_qout (b : Dim) (f : Format) : (s.beginEncode b f).qout = s.qout := rfl
@[simp] theorem State.beginEncode_inbox (b : Dim) (f : Format) : (s.beginEncode b f).inbox = s.inbox := rfl
@[simp] theorem State.beginEncode_reply (b : Dim) (f : Format) : (s.beginEncode b f).reply = s.reply := rfl

/-! ### `putPixel`: PUSH (R98) -/

@[simp] theorem State.putPixel_seq (d : Entry) (q : QPixel) : (s.putPixel d q).seq = s.seq := rfl
@[simp] theorem State.putPixel_bvalid (d : Entry) (q : QPixel) : (s.putPixel d q).bvalid = s.bvalid := rfl
@[simp] theorem State.putPixel_err (d : Entry) (q : QPixel) : (s.putPixel d q).err = s.err := rfl
@[simp] theorem State.putPixel_errsub (d : Entry) (q : QPixel) : (s.putPixel d q).errsub = s.errsub := rfl
@[simp] theorem State.putPixel_errinfo (d : Entry) (q : QPixel) : (s.putPixel d q).errinfo = s.errinfo := rfl
@[simp] theorem State.putPixel_loaded (d : Entry) (q : QPixel) : (s.putPixel d q).loaded = s.loaded := rfl
@[simp] theorem State.putPixel_map (d : Entry) (q : QPixel) : (s.putPixel d q).map = s.map := rfl
@[simp] theorem State.putPixel_lbank (d : Entry) (q : QPixel) : (s.putPixel d q).lbank = s.lbank := rfl
@[simp] theorem State.putPixel_lcnt (d : Entry) (q : QPixel) : (s.putPixel d q).lcnt = s.lcnt := rfl
@[simp] theorem State.putPixel_adim (d : Entry) (q : QPixel) : (s.putPixel d q).adim = s.adim := rfl
@[simp] theorem State.putPixel_afmt (d : Entry) (q : QPixel) : (s.putPixel d q).afmt = s.afmt := rfl
@[simp] theorem State.putPixel_idx (d : Entry) (q : QPixel) : (s.putPixel d q).idx = s.idx + 1 := rfl
@[simp] theorem State.putPixel_out (d : Entry) (q : QPixel) : (s.putPixel d q).out = cellWrite (cellWrite s.out (destByte0 d) (qByte0 q)) (destByte1 d) (qByte1 q) := rfl
@[simp] theorem State.putPixel_wr (d : Entry) (q : QPixel) : (s.putPixel d q).wr = cellWrite (cellWrite s.wr (destByte0 d) ()) (destByte1 d) () := rfl
@[simp] theorem State.putPixel_vdone (d : Entry) (q : QPixel) : (s.putPixel d q).vdone = s.vdone := rfl
@[simp] theorem State.putPixel_vok (d : Entry) (q : QPixel) : (s.putPixel d q).vok = s.vok := rfl
@[simp] theorem State.putPixel_vbank (d : Entry) (q : QPixel) : (s.putPixel d q).vbank = s.vbank := rfl
@[simp] theorem State.putPixel_pix (d : Entry) (q : QPixel) : (s.putPixel d q).pix = s.pix := rfl
@[simp] theorem State.putPixel_imgdim (d : Entry) (q : QPixel) : (s.putPixel d q).imgdim = s.imgdim := rfl
@[simp] theorem State.putPixel_qout (d : Entry) (q : QPixel) : (s.putPixel d q).qout = q := rfl
@[simp] theorem State.putPixel_inbox (d : Entry) (q : QPixel) : (s.putPixel d q).inbox = s.inbox := rfl
@[simp] theorem State.putPixel_reply (d : Entry) (q : QPixel) : (s.putPixel d q).reply = s.reply := rfl

/-! ### `finishEncode`: completion (R100) -/

@[simp] theorem State.finishEncode_seq : s.finishEncode.seq = .idle := rfl
@[simp] theorem State.finishEncode_bvalid : s.finishEncode.bvalid = true := rfl
@[simp] theorem State.finishEncode_err : s.finishEncode.err = s.err := rfl
@[simp] theorem State.finishEncode_errsub : s.finishEncode.errsub = s.errsub := rfl
@[simp] theorem State.finishEncode_errinfo : s.finishEncode.errinfo = s.errinfo := rfl
@[simp] theorem State.finishEncode_loaded : s.finishEncode.loaded = s.loaded := rfl
@[simp] theorem State.finishEncode_map : s.finishEncode.map = s.map := rfl
@[simp] theorem State.finishEncode_lbank : s.finishEncode.lbank = s.lbank := rfl
@[simp] theorem State.finishEncode_lcnt : s.finishEncode.lcnt = s.lcnt := rfl
@[simp] theorem State.finishEncode_adim : s.finishEncode.adim = s.adim := rfl
@[simp] theorem State.finishEncode_afmt : s.finishEncode.afmt = s.afmt := rfl
@[simp] theorem State.finishEncode_idx : s.finishEncode.idx = s.idx := rfl
@[simp] theorem State.finishEncode_out : s.finishEncode.out = s.out := rfl
@[simp] theorem State.finishEncode_wr : s.finishEncode.wr = s.wr := rfl
@[simp] theorem State.finishEncode_vdone : s.finishEncode.vdone = s.vdone := rfl
@[simp] theorem State.finishEncode_vok : s.finishEncode.vok = s.vok := rfl
@[simp] theorem State.finishEncode_vbank : s.finishEncode.vbank = s.vbank := rfl
@[simp] theorem State.finishEncode_pix : s.finishEncode.pix = s.pix := rfl
@[simp] theorem State.finishEncode_imgdim : s.finishEncode.imgdim = s.imgdim := rfl
@[simp] theorem State.finishEncode_qout : s.finishEncode.qout = s.qout := rfl
@[simp] theorem State.finishEncode_inbox : s.finishEncode.inbox = s.inbox := rfl
@[simp] theorem State.finishEncode_reply : s.finishEncode.reply = s.reply := rfl

/-! ### `setPix`: a host write of PIX (R32) -/

@[simp] theorem State.setPix_seq (v : Word) : (s.setPix v).seq = s.seq := rfl
@[simp] theorem State.setPix_bvalid (v : Word) : (s.setPix v).bvalid = s.bvalid := rfl
@[simp] theorem State.setPix_err (v : Word) : (s.setPix v).err = s.err := rfl
@[simp] theorem State.setPix_errsub (v : Word) : (s.setPix v).errsub = s.errsub := rfl
@[simp] theorem State.setPix_errinfo (v : Word) : (s.setPix v).errinfo = s.errinfo := rfl
@[simp] theorem State.setPix_loaded (v : Word) : (s.setPix v).loaded = s.loaded := rfl
@[simp] theorem State.setPix_map (v : Word) : (s.setPix v).map = s.map := rfl
@[simp] theorem State.setPix_lbank (v : Word) : (s.setPix v).lbank = s.lbank := rfl
@[simp] theorem State.setPix_lcnt (v : Word) : (s.setPix v).lcnt = s.lcnt := rfl
@[simp] theorem State.setPix_adim (v : Word) : (s.setPix v).adim = s.adim := rfl
@[simp] theorem State.setPix_afmt (v : Word) : (s.setPix v).afmt = s.afmt := rfl
@[simp] theorem State.setPix_idx (v : Word) : (s.setPix v).idx = s.idx := rfl
@[simp] theorem State.setPix_out (v : Word) : (s.setPix v).out = s.out := rfl
@[simp] theorem State.setPix_wr (v : Word) : (s.setPix v).wr = s.wr := rfl
@[simp] theorem State.setPix_vdone (v : Word) : (s.setPix v).vdone = s.vdone := rfl
@[simp] theorem State.setPix_vok (v : Word) : (s.setPix v).vok = s.vok := rfl
@[simp] theorem State.setPix_vbank (v : Word) : (s.setPix v).vbank = s.vbank := rfl
@[simp] theorem State.setPix_pix (v : Word) : (s.setPix v).pix = v := rfl
@[simp] theorem State.setPix_imgdim (v : Word) : (s.setPix v).imgdim = s.imgdim := rfl
@[simp] theorem State.setPix_qout (v : Word) : (s.setPix v).qout = s.qout := rfl
@[simp] theorem State.setPix_inbox (v : Word) : (s.setPix v).inbox = s.inbox := rfl
@[simp] theorem State.setPix_reply (v : Word) : (s.setPix v).reply = s.reply := rfl

/-! ### `setImgdim`: a host write of IMGDIM (R33) -/

@[simp] theorem State.setImgdim_seq (v : Word) : (s.setImgdim v).seq = s.seq := rfl
@[simp] theorem State.setImgdim_bvalid (v : Word) : (s.setImgdim v).bvalid = s.bvalid := rfl
@[simp] theorem State.setImgdim_err (v : Word) : (s.setImgdim v).err = s.err := rfl
@[simp] theorem State.setImgdim_errsub (v : Word) : (s.setImgdim v).errsub = s.errsub := rfl
@[simp] theorem State.setImgdim_errinfo (v : Word) : (s.setImgdim v).errinfo = s.errinfo := rfl
@[simp] theorem State.setImgdim_loaded (v : Word) : (s.setImgdim v).loaded = s.loaded := rfl
@[simp] theorem State.setImgdim_map (v : Word) : (s.setImgdim v).map = s.map := rfl
@[simp] theorem State.setImgdim_lbank (v : Word) : (s.setImgdim v).lbank = s.lbank := rfl
@[simp] theorem State.setImgdim_lcnt (v : Word) : (s.setImgdim v).lcnt = s.lcnt := rfl
@[simp] theorem State.setImgdim_adim (v : Word) : (s.setImgdim v).adim = s.adim := rfl
@[simp] theorem State.setImgdim_afmt (v : Word) : (s.setImgdim v).afmt = s.afmt := rfl
@[simp] theorem State.setImgdim_idx (v : Word) : (s.setImgdim v).idx = s.idx := rfl
@[simp] theorem State.setImgdim_out (v : Word) : (s.setImgdim v).out = s.out := rfl
@[simp] theorem State.setImgdim_wr (v : Word) : (s.setImgdim v).wr = s.wr := rfl
@[simp] theorem State.setImgdim_vdone (v : Word) : (s.setImgdim v).vdone = s.vdone := rfl
@[simp] theorem State.setImgdim_vok (v : Word) : (s.setImgdim v).vok = s.vok := rfl
@[simp] theorem State.setImgdim_vbank (v : Word) : (s.setImgdim v).vbank = s.vbank := rfl
@[simp] theorem State.setImgdim_pix (v : Word) : (s.setImgdim v).pix = s.pix := rfl
@[simp] theorem State.setImgdim_imgdim (v : Word) : (s.setImgdim v).imgdim = v := rfl
@[simp] theorem State.setImgdim_qout (v : Word) : (s.setImgdim v).qout = s.qout := rfl
@[simp] theorem State.setImgdim_inbox (v : Word) : (s.setImgdim v).inbox = s.inbox := rfl
@[simp] theorem State.setImgdim_reply (v : Word) : (s.setImgdim v).reply = s.reply := rfl

/-! ### `setReply`: what a transaction returns -/

@[simp] theorem State.setReply_seq (r : Option Word) : (s.setReply r).seq = s.seq := rfl
@[simp] theorem State.setReply_bvalid (r : Option Word) : (s.setReply r).bvalid = s.bvalid := rfl
@[simp] theorem State.setReply_err (r : Option Word) : (s.setReply r).err = s.err := rfl
@[simp] theorem State.setReply_errsub (r : Option Word) : (s.setReply r).errsub = s.errsub := rfl
@[simp] theorem State.setReply_errinfo (r : Option Word) : (s.setReply r).errinfo = s.errinfo := rfl
@[simp] theorem State.setReply_loaded (r : Option Word) : (s.setReply r).loaded = s.loaded := rfl
@[simp] theorem State.setReply_map (r : Option Word) : (s.setReply r).map = s.map := rfl
@[simp] theorem State.setReply_lbank (r : Option Word) : (s.setReply r).lbank = s.lbank := rfl
@[simp] theorem State.setReply_lcnt (r : Option Word) : (s.setReply r).lcnt = s.lcnt := rfl
@[simp] theorem State.setReply_adim (r : Option Word) : (s.setReply r).adim = s.adim := rfl
@[simp] theorem State.setReply_afmt (r : Option Word) : (s.setReply r).afmt = s.afmt := rfl
@[simp] theorem State.setReply_idx (r : Option Word) : (s.setReply r).idx = s.idx := rfl
@[simp] theorem State.setReply_out (r : Option Word) : (s.setReply r).out = s.out := rfl
@[simp] theorem State.setReply_wr (r : Option Word) : (s.setReply r).wr = s.wr := rfl
@[simp] theorem State.setReply_vdone (r : Option Word) : (s.setReply r).vdone = s.vdone := rfl
@[simp] theorem State.setReply_vok (r : Option Word) : (s.setReply r).vok = s.vok := rfl
@[simp] theorem State.setReply_vbank (r : Option Word) : (s.setReply r).vbank = s.vbank := rfl
@[simp] theorem State.setReply_pix (r : Option Word) : (s.setReply r).pix = s.pix := rfl
@[simp] theorem State.setReply_imgdim (r : Option Word) : (s.setReply r).imgdim = s.imgdim := rfl
@[simp] theorem State.setReply_qout (r : Option Word) : (s.setReply r).qout = s.qout := rfl
@[simp] theorem State.setReply_inbox (r : Option Word) : (s.setReply r).inbox = s.inbox := rfl
@[simp] theorem State.setReply_reply (r : Option Word) : (s.setReply r).reply = r := rfl

/-! ### `setInbox`: the transactions left to serve -/

@[simp] theorem State.setInbox_seq (ts : List HostTxn) : (s.setInbox ts).seq = s.seq := rfl
@[simp] theorem State.setInbox_bvalid (ts : List HostTxn) : (s.setInbox ts).bvalid = s.bvalid := rfl
@[simp] theorem State.setInbox_err (ts : List HostTxn) : (s.setInbox ts).err = s.err := rfl
@[simp] theorem State.setInbox_errsub (ts : List HostTxn) : (s.setInbox ts).errsub = s.errsub := rfl
@[simp] theorem State.setInbox_errinfo (ts : List HostTxn) : (s.setInbox ts).errinfo = s.errinfo := rfl
@[simp] theorem State.setInbox_loaded (ts : List HostTxn) : (s.setInbox ts).loaded = s.loaded := rfl
@[simp] theorem State.setInbox_map (ts : List HostTxn) : (s.setInbox ts).map = s.map := rfl
@[simp] theorem State.setInbox_lbank (ts : List HostTxn) : (s.setInbox ts).lbank = s.lbank := rfl
@[simp] theorem State.setInbox_lcnt (ts : List HostTxn) : (s.setInbox ts).lcnt = s.lcnt := rfl
@[simp] theorem State.setInbox_adim (ts : List HostTxn) : (s.setInbox ts).adim = s.adim := rfl
@[simp] theorem State.setInbox_afmt (ts : List HostTxn) : (s.setInbox ts).afmt = s.afmt := rfl
@[simp] theorem State.setInbox_idx (ts : List HostTxn) : (s.setInbox ts).idx = s.idx := rfl
@[simp] theorem State.setInbox_out (ts : List HostTxn) : (s.setInbox ts).out = s.out := rfl
@[simp] theorem State.setInbox_wr (ts : List HostTxn) : (s.setInbox ts).wr = s.wr := rfl
@[simp] theorem State.setInbox_vdone (ts : List HostTxn) : (s.setInbox ts).vdone = s.vdone := rfl
@[simp] theorem State.setInbox_vok (ts : List HostTxn) : (s.setInbox ts).vok = s.vok := rfl
@[simp] theorem State.setInbox_vbank (ts : List HostTxn) : (s.setInbox ts).vbank = s.vbank := rfl
@[simp] theorem State.setInbox_pix (ts : List HostTxn) : (s.setInbox ts).pix = s.pix := rfl
@[simp] theorem State.setInbox_imgdim (ts : List HostTxn) : (s.setInbox ts).imgdim = s.imgdim := rfl
@[simp] theorem State.setInbox_qout (ts : List HostTxn) : (s.setInbox ts).qout = s.qout := rfl
@[simp] theorem State.setInbox_inbox (ts : List HostTxn) : (s.setInbox ts).inbox = ts := rfl
@[simp] theorem State.setInbox_reply (ts : List HostTxn) : (s.setInbox ts).reply = s.reply := rfl

/-! ### `applyReset`: the reset input (R129) -/

@[simp] theorem State.applyReset_seq : s.applyReset.seq = State.reset.seq := rfl
@[simp] theorem State.applyReset_bvalid : s.applyReset.bvalid = State.reset.bvalid := rfl
@[simp] theorem State.applyReset_err : s.applyReset.err = State.reset.err := rfl
@[simp] theorem State.applyReset_errsub : s.applyReset.errsub = State.reset.errsub := rfl
@[simp] theorem State.applyReset_errinfo : s.applyReset.errinfo = State.reset.errinfo := rfl
@[simp] theorem State.applyReset_loaded : s.applyReset.loaded = State.reset.loaded := rfl
@[simp] theorem State.applyReset_map : s.applyReset.map = State.reset.map := rfl
@[simp] theorem State.applyReset_lbank : s.applyReset.lbank = State.reset.lbank := rfl
@[simp] theorem State.applyReset_lcnt : s.applyReset.lcnt = State.reset.lcnt := rfl
@[simp] theorem State.applyReset_adim : s.applyReset.adim = State.reset.adim := rfl
@[simp] theorem State.applyReset_afmt : s.applyReset.afmt = State.reset.afmt := rfl
@[simp] theorem State.applyReset_idx : s.applyReset.idx = State.reset.idx := rfl
@[simp] theorem State.applyReset_out : s.applyReset.out = State.reset.out := rfl
@[simp] theorem State.applyReset_wr : s.applyReset.wr = State.reset.wr := rfl
@[simp] theorem State.applyReset_vdone : s.applyReset.vdone = State.reset.vdone := rfl
@[simp] theorem State.applyReset_vok : s.applyReset.vok = State.reset.vok := rfl
@[simp] theorem State.applyReset_vbank : s.applyReset.vbank = State.reset.vbank := rfl
@[simp] theorem State.applyReset_pix : s.applyReset.pix = State.reset.pix := rfl
@[simp] theorem State.applyReset_imgdim : s.applyReset.imgdim = State.reset.imgdim := rfl
@[simp] theorem State.applyReset_qout : s.applyReset.qout = State.reset.qout := rfl
@[simp] theorem State.applyReset_inbox : s.applyReset.inbox = s.inbox := rfl
@[simp] theorem State.applyReset_reply : s.applyReset.reply = State.reset.reply := rfl

end Sys2Proof.Machine
end

