-- ==== Sys2Proof/Laws/Bus.lean ====
section
/-! SUPPORT. What the operations of the host bus can do: window reads, their assembly of bytes, and their faults. -/

namespace Sys2Proof.Machine

open Sys2Proof

/-! ### Window offsets -/

theorem windowOffset_toNat (o : BitVec 16) : (windowOffset o).toNat = 65536 + o.toNat := by
  rw [windowOffset, append_toNat]
  rfl

theorem inWindow_windowOffset (o : BitVec 16) : inWindow (windowOffset o) = true := by
  unfold inWindow
  rw [windowOffset_toNat]
  exact decide_eq_true (Nat.le_add_right _ _)

theorem windowByte_windowOffset (o : BitVec 16) : windowByte (windowOffset o) = o.toNat := by
  unfold windowByte
  rw [windowOffset_toNat]
  exact Nat.add_sub_cancel_left _ _

/-- An aligned window access of at most 32 bits is legal (R51, R53). -/
theorem legalAccess_windowOffset (o : BitVec 16) (w : Width) (h : w ≠ .wider) (ha : o.toNat % w.bytes = 0) :
    legalAccess (windowOffset o) w = true := by
  have hn := windowOffset_toNat o
  unfold legalAccess
  rw [inWindow_windowOffset, hn]
  cases w with
  | w8 => simp [Width.bytes, Nat.mod_one]
  | w16 => change o.toNat % 2 = 0 at ha; simp [Width.bytes]; omega
  | w32 => change o.toNat % 4 = 0 at ha; simp [Width.bytes]; omega
  | wider => exact absurd rfl h

/-- A legal window read is the read of its bytes. -/
theorem hostRead_windowOffset (o : BitVec 16) (w : Width) (s : State) (h : w ≠ .wider) (ha : o.toNat % w.bytes = 0) :
    hostRead (windowOffset o) w s = readWindow o.toNat w.bytes s := by
  simp [hostRead, legalAccess_windowOffset o w h ha, inWindow_windowOffset, windowByte_windowOffset]

/-! ### The bytes of a window read -/

/-- A window read that faults names a byte that it covers and that is not admitted (R58). -/
theorem windowBytes_error (s : State) (n o : Nat) (f : Fault) (h : s.windowBytes o n = .error f) :
    ∃ p, f = .unwrittenRead p ∧ o ≤ p ∧ p < o + n ∧ s.admittedByte p = none := by
  induction n generalizing o with
  | zero => cases h
  | succ n ih =>
    rw [State.windowBytes] at h
    split at h
    · rename_i hn
      cases h
      exact ⟨o, rfl, Nat.le_refl _, by omega, hn⟩
    · split at h
      · cases h
      · rename_i g hg
        cases h
        obtain ⟨p, rfl, h1, h2, h3⟩ := ih _ hg
        exact ⟨p, rfl, by omega, by omega, h3⟩

/-- A window read that answers gives exactly the admitted bytes it covers (R56). -/
theorem windowBytes_ok (s : State) (n o : Nat) (bs : List Byte) (h : s.windowBytes o n = .ok bs) :
    bs.length = n ∧ ∀ k, (hk : k < bs.length) → s.admittedByte (o + k) = some bs[k] := by
  induction n generalizing o bs with
  | zero =>
    cases h
    exact ⟨rfl, fun k hk => absurd hk (Nat.not_lt_zero _)⟩
  | succ n ih =>
    rw [State.windowBytes] at h
    split at h
    · cases h
    · rename_i b hb
      split at h
      · rename_i bs' hbs
        cases h
        obtain ⟨h1, h2⟩ := ih _ _ hbs
        refine ⟨by rw [List.length_cons, h1], fun k hk => ?_⟩
        cases k with
        | zero => exact hb
        | succ k =>
          rw [show o + (k + 1) = o + 1 + k by omega]
          exact h2 k (by simpa using hk)
      · cases h

/-- The bytes a window read may return depend on BVALID's blob, its marks and OUT only. -/
theorem windowBytes_congr (s t : State) (h : ∀ o, t.admittedByte o = s.admittedByte o) (n o : Nat) :
    t.windowBytes o n = s.windowBytes o n := by
  induction n generalizing o with
  | zero => rfl
  | succ n ih => simp only [State.windowBytes, ih, h]

/-- The assembly of at most four bytes: the k-th is bits 8k+7..8k, and nothing stands above them (R51, R55). -/
theorem bytesLE_spec (bs : List Byte) (h : bs.length ≤ 4) : (bytesLE bs).toNat < 2 ^ (8 * bs.length) ∧
    ∀ k, (hk : k < bs.length) → (bytesLE bs).extractLsb' (8 * k) 8 = bs[k] := by
  induction bs with
  | nil => exact ⟨by decide, fun k hk => absurd hk (Nat.not_lt_zero _)⟩
  | cons b bs ih =>
    rw [List.length_cons] at h
    obtain ⟨h1, h2⟩ := ih (by omega)
    have hb := b.isLt
    have hp : 2 ^ (8 * bs.length) ≤ 2 ^ 24 := Nat.pow_le_pow_right (by decide) (by omega)
    have e : (bytesLE (b :: bs)).toNat = (bytesLE bs).toNat * 256 + b.toNat := by
      show (b.setWidth 32 ||| (bytesLE bs <<< 8)).toNat = _
      rw [BitVec.toNat_or, BitVec.toNat_shiftLeft, BitVec.toNat_setWidth, Nat.mod_eq_of_lt (by omega : b.toNat < 2 ^ 32),
        Nat.shiftLeft_eq, Nat.mod_eq_of_lt (by omega), Nat.or_comm]
      have := Nat.shiftLeft_add_eq_or_of_lt hb (bytesLE bs).toNat
      rw [Nat.shiftLeft_eq] at this
      rw [← this]
    refine ⟨?_, fun k hk => ?_⟩
    · rw [e]
      have : 2 ^ (8 * (b :: bs).length) = 2 ^ (8 * bs.length) * 256 := by rw [List.length_cons, Nat.mul_add, Nat.pow_add]
      omega
    · apply BitVec.eq_of_toNat_eq
      rw [BitVec.extractLsb'_toNat, e, Nat.shiftRight_eq_div_pow]
      cases k with
      | zero => simp; omega
      | succ k =>
        have h4 := congrArg BitVec.toNat (h2 k (by simpa using hk))
        rw [BitVec.extractLsb'_toNat, Nat.shiftRight_eq_div_pow] at h4
        rw [List.getElem_cons_succ, ← h4, show 8 * (k + 1) = 8 + 8 * k by ring, Nat.pow_add, ← Nat.div_div_eq_div_mul]
        congr 2
        omega

/-! ### Reads -/

/-- Everything a read that faults can be: a bus error, a read with no blob, or a read of an unreadable byte. -/
theorem hostRead_error (a : Offset) (w : Width) (s : State) (f : Fault) (h : hostRead a w s = .error f) :
    (legalAccess a w = false ∧ f = .busError) ∨
    (legalAccess a w = true ∧ inWindow a = true ∧ s.bvalid = false ∧ f = .blobNotReady) ∨
    (legalAccess a w = true ∧ inWindow a = true ∧ s.bvalid = true ∧ s.windowBytes (windowByte a) w.bytes = .error f) := by
  unfold hostRead readWindow at h
  cases hl : legalAccess a w with
  | false => rw [hl] at h; cases h; exact .inl ⟨rfl, rfl⟩
  | true =>
    rw [hl, if_neg (by decide)] at h
    cases hw : inWindow a with
    | false => rw [hw] at h; cases h
    | true =>
      rw [hw, if_pos rfl] at h
      cases hb : s.bvalid with
      | false => rw [hb] at h; cases h; exact .inr (.inl ⟨rfl, rfl, rfl, rfl⟩)
      | true =>
        rw [hb, if_neg (by decide)] at h
        refine .inr (.inr ⟨rfl, rfl, rfl, ?_⟩)
        split at h
        · cases h
        · rename_i g hg
          cases h
          exact hg

/-- No two values of a list are equal exactly when `distinct` says so (R84). -/
theorem distinct_iff_nodup (l : List Nat) : distinct l = true ↔ l.Nodup := by
  induction l with
  | nil => simp [distinct]
  | cons v vs ih => simp [distinct, ih]

end Sys2Proof.Machine
end

