-- ==== Sys2Proof/Laws/Memory.lean ====
section
/-! SUPPORT. Laws of the sparse memories: read after write, and the canonical form is kept. -/

namespace Sys2Proof.Machine

open Sys2Proof

variable {α : Type}

@[simp] theorem cellRead_nil (a : Nat) : cellRead ([] : Memory α) a = none := rfl

@[simp] theorem cellRead_cellWrite_same (m : Memory α) (a : Nat) (v : α) : cellRead (cellWrite m a v) a = some v := by
  induction m with
  | nil => simp [cellWrite, cellRead]
  | cons p m ih =>
    simp only [cellWrite]
    split
    · simp [cellRead]
    · split
      · simp [cellRead]
      · rename_i h
        simp [cellRead, h, ih]

@[simp] theorem cellRead_cellWrite_other (m : Memory α) {a b : Nat} (v : α) (h : b ≠ a) :
    cellRead (cellWrite m a v) b = cellRead m b := by
  induction m with
  | nil => simp [cellWrite, cellRead, h]
  | cons p m ih =>
    simp only [cellWrite]
    split
    · simp [cellRead, h]
    · split
      · rename_i h2
        subst h2
        simp [cellRead, h]
      · simp [cellRead, ih]

theorem cellRead_cellWrite (m : Memory α) (a b : Nat) (v : α) :
    cellRead (cellWrite m a v) b = if b = a then some v else cellRead m b := by
  by_cases h : b = a
  · subst h; simp
  · simp [h]

/-- The head of a canonical memory lies below everything after it. -/
theorem Memory.wf_cons_iff (k : Nat) (w : α) (m : Memory α) :
    Memory.wf ((k, w) :: m) = true ↔ (∀ l v, m.head? = some (l, v) → k < l) ∧ Memory.wf m = true := by
  cases m with
  | nil => simp [Memory.wf]
  | cons q m =>
    obtain ⟨l, u⟩ := q
    simp [Memory.wf]

/-- A write puts at the head either the old head or the address written. -/
theorem cellWrite_head (m : Memory α) (a : Nat) (v : α) (l : Nat) (w : α)
    (h : (cellWrite m a v).head? = some (l, w)) : l = a ∨ ∃ u, m.head? = some (l, u) := by
  cases m with
  | nil => simp only [cellWrite, List.head?_cons, Option.some.injEq, Prod.mk.injEq] at h; exact .inl h.1.symm
  | cons p m =>
    simp only [cellWrite] at h
    split at h
    · simp only [List.head?_cons, Option.some.injEq, Prod.mk.injEq] at h; exact .inl h.1.symm
    · split at h
      · simp only [List.head?_cons, Option.some.injEq, Prod.mk.injEq] at h; exact .inl h.1.symm
      · simp only [List.head?_cons, Option.some.injEq] at h; exact .inr ⟨w, by simpa using h⟩

/-- Every write keeps the canonical form. -/
theorem cellWrite_wf (m : Memory α) (a : Nat) (v : α) (h : Memory.wf m = true) :
    Memory.wf (cellWrite m a v) = true := by
  induction m with
  | nil => rfl
  | cons p m ih =>
    obtain ⟨k, w⟩ := p
    simp only [cellWrite]
    split
    · rename_i hlt
      rw [Memory.wf_cons_iff]
      exact ⟨fun l u hl => by simp only [List.head?_cons, Option.some.injEq, Prod.mk.injEq] at hl; omega, h⟩
    · rw [Memory.wf_cons_iff] at h
      split
      · rename_i heq
        subst heq
        rw [Memory.wf_cons_iff]
        exact h
      · rw [Memory.wf_cons_iff]
        refine ⟨fun l u hl => ?_, ih h.2⟩
        rcases cellWrite_head m a v l u hl with rfl | ⟨u', hu⟩
        · omega
        · exact h.1 l u' hu

/-- Below its head a canonical memory lists nothing. -/
theorem cellRead_below (m : Memory α) (a : Nat) (h : Memory.wf m = true)
    (hb : ∀ l v, m.head? = some (l, v) → a < l) : cellRead m a = none := by
  induction m with
  | nil => rfl
  | cons p m ih =>
    obtain ⟨k, w⟩ := p
    rw [Memory.wf_cons_iff] at h
    have hk : a < k := hb k w rfl
    simp only [cellRead, Nat.ne_of_lt hk, if_false]
    exact ih h.2 (fun l v hl => Nat.lt_trans hk (h.1 l v hl))

/-- Equal canonical memories are equal data. -/
theorem Memory.ext_read (m m' : Memory α) (h : Memory.wf m = true) (h' : Memory.wf m' = true)
    (e : ∀ a, cellRead m a = cellRead m' a) : m = m' := by
  induction m generalizing m' with
  | nil =>
    cases m' with
    | nil => rfl
    | cons p m' => have := e p.1; simp [cellRead] at this
  | cons p m ih =>
    obtain ⟨k, w⟩ := p
    cases m' with
    | nil => have := e k; simp [cellRead] at this
    | cons q m' =>
      obtain ⟨l, u⟩ := q
      have hkl : k = l := by
        rcases Nat.lt_trichotomy k l with hlt | heq | hgt
        · have h1 := cellRead_below ((l, u) :: m') k h' (fun _ _ hh => by
            simp only [List.head?_cons, Option.some.injEq, Prod.mk.injEq] at hh; omega)
          rw [← e k] at h1; simp [cellRead] at h1
        · exact heq
        · have h1 := cellRead_below ((k, w) :: m) l h (fun _ _ hh => by
            simp only [List.head?_cons, Option.some.injEq, Prod.mk.injEq] at hh; omega)
          rw [e l] at h1; simp [cellRead] at h1
      subst hkl
      have hw : w = u := by have := e k; simpa [cellRead] using this
      subst hw
      rw [Memory.wf_cons_iff] at h h'
      rw [ih m' h.2 h'.2 (fun a => ?_)]
      by_cases ha : a = k
      · subst ha
        rw [cellRead_below m a h.2 h.1, cellRead_below m' a h'.2 h'.1]
      · have := e a
        simpa [cellRead, ha] using this

/-- Every memory operation of the machine keeps the canonical form: reset lists nothing. -/
theorem reset_memory_wf : Memory.wf State.reset.out = true ∧ Memory.wf State.reset.wr = true ∧
    ∀ b, Memory.wf (State.reset.map.get b) = true :=
  ⟨rfl, rfl, fun b => by cases b <;> rfl⟩

end Sys2Proof.Machine
end

