-- ==== Sys2Proof/Laws/Ops.lean ====
section
/-! SUPPORT. One lemma per shared operation that says everything it can do. -/

namespace Sys2Proof.Machine

open Sys2Proof

/-! ### The dimensions -/

@[simp] theorem entries_d24 : Dim.d24.entries = 576 := rfl
@[simp] theorem entries_d48 : Dim.d48.entries = 2304 := rfl
@[simp] theorem entries_d256 : Dim.d256.entries = 32768 := rfl

/-- N(b) ≤ 32768 (R19, R47). -/
theorem entries_le (b : Dim) : b.entries ≤ 32768 := by cases b <;> decide

theorem entries_pos (b : Dim) : 0 < b.entries := by cases b <;> decide

/-- A count below N does not wrap when it is counted up (R19, R82). -/
theorem count_up (x : BitVec 16) (b : Dim) (h : x.toNat < b.entries) : (x + 1).toNat = x.toNat + 1 := by
  have := entries_le b
  rw [BitVec.toNat_add]
  show (x.toNat + 1) % 2 ^ 16 = x.toNat + 1
  omega

/-- Row-major order (R11, R101): a pixel's row and column give its source index back. -/
theorem sourceIndex_row_col (b : Dim) (k : Nat) : b.sourceIndex (b.sourceRow k) (b.sourceCol k) = k := by
  unfold Dim.sourceIndex Dim.sourceRow Dim.sourceCol
  exact Nat.div_add_mod' k b.width

/-! ### Commands -/

/-- The effect of each command past the ERROR gate. -/
def effect : Instr → State → State
  | .nop => fun s => s
  | .mapbeginD24 => mapBegin .mapbeginD24 .d24
  | .mapbeginD48 => mapBegin .mapbeginD48 .d48
  | .mapbeginD256 => mapBegin .mapbeginD256 .d256
  | .mapentry v => mapAppend v
  | .mapend => mapEnd
  | .mapverifyD24 => mapVerify .mapverifyD24 .d24
  | .mapverifyD48 => mapVerify .mapverifyD48 .d48
  | .mapverifyD256 => mapVerify .mapverifyD256 .d256
  | .quantRgb565 => quantPixel .rgb565
  | .quantRgba4444 => quantPixel .rgba4444
  | .startD24 => startEncode .startD24 .d24
  | .startD48 => startEncode .startD48 .d48
  | .startD256 => startEncode .startD256 .d256
  | .push => pushPixel

theorem command_eq (s : State) (f : State → State) (h : s.seq ≠ .error) : s.command f = .next (f s) := by
  simp [State.command, h]

theorem command_error (s : State) (f : State → State) (h : s.seq = .error) : s.command f = .next s := by
  simp [State.command, h]

/-- `command` answers next exactly: the state itself in ERROR (R106), the effect elsewhere. -/
theorem command_next (s t : State) (f : State → State) :
    s.command f = .next t ↔ (s.seq = .error ∧ t = s) ∨ (s.seq ≠ .error ∧ t = f s) := by
  by_cases h : s.seq = .error
  · simp [State.command, h, eq_comm]
  · simp [State.command, h, eq_comm]

/-- Every command is its effect behind the ERROR gate. -/
theorem exec_eq_command (i : Instr) (s : State) : exec i s = s.command (effect i) := by
  cases i <;> rfl

theorem mapBegin_cases (i : Instr) (b : Dim) (s : State) :
    (s.seq ≠ .idle ∧ mapBegin i b s = s.sequenceError i) ∨
    (s.seq = .idle ∧ s.loaded.get b = true ∧
      mapBegin i b s = s.raiseError .mapImmutable b.sub (commandInfo (encode i))) ∨
    (s.seq = .idle ∧ s.loaded.get b = false ∧ mapBegin i b s = s.beginLoad b) := by
  unfold mapBegin
  by_cases h : s.seq = .idle <;> cases hl : s.loaded.get b <;> simp [h]

theorem mapAppend_cases (v : Entry) (s : State) :
    (s.seq ≠ .loading ∧ mapAppend v s = s.sequenceError (.mapentry v)) ∨
    (s.seq = .loading ∧ s.lcnt.toNat = s.lbank.entries ∧
      mapAppend v s = s.raiseError .resourceError 2 (errInfo v s.lcnt)) ∨
    (s.seq = .loading ∧ s.lcnt.toNat ≠ s.lbank.entries ∧ mapAppend v s = s.appendEntry v) := by
  unfold mapAppend
  by_cases h : s.seq = .loading <;> by_cases hl : s.lcnt.toNat = s.lbank.entries <;> simp [h, hl]

theorem mapEnd_cases (s : State) :
    (s.seq ≠ .loading ∧ mapEnd s = s.sequenceError .mapend) ∨
    (s.seq = .loading ∧ s.lcnt.toNat ≠ s.lbank.entries ∧ s.lcnt = 0 ∧
      mapEnd s = s.raiseError .resourceError 0 (errInfo 0 s.lcnt)) ∨
    (s.seq = .loading ∧ s.lcnt.toNat ≠ s.lbank.entries ∧ s.lcnt ≠ 0 ∧
      mapEnd s = s.raiseError .resourceError 1 (errInfo 0 s.lcnt)) ∨
    (s.seq = .loading ∧ s.lcnt.toNat = s.lbank.entries ∧ mapEnd s = s.endLoad) := by
  unfold mapEnd
  by_cases h : s.seq = .loading
  · by_cases hl : s.lcnt.toNat = s.lbank.entries
    · simp [h, hl]
    · by_cases h0 : s.lcnt = 0
      · exact .inr (.inl ⟨h, hl, h0, by rw [if_neg (not_not.mpr h), if_pos hl, if_pos h0]⟩)
      · exact .inr (.inr (.inl ⟨h, hl, h0, by rw [if_neg (not_not.mpr h), if_pos hl, if_neg h0]⟩))
  · simp [h]

theorem mapVerify_cases (i : Instr) (b : Dim) (s : State) :
    (s.seq ≠ .idle ∧ mapVerify i b s = s.sequenceError i) ∨
    (s.seq = .idle ∧ s.loaded.get b = false ∧
      mapVerify i b s = s.raiseError .resourceError 3 (errInfo 0 b.info)) ∨
    (s.seq = .idle ∧ s.loaded.get b = true ∧ mapVerify i b s = s.recordVerify b (s.tableIsBijection b)) := by
  unfold mapVerify
  by_cases h : s.seq = .idle <;> cases hl : s.loaded.get b <;> simp [h]

theorem startEncode_cases (i : Instr) (b : Dim) (s : State) :
    (s.seq ≠ .idle ∧ startEncode i b s = s.sequenceError i) ∨
    (s.seq = .idle ∧ sizeMatches b s.imgdim = false ∧
      startEncode i b s = s.raiseError .dimensionError (sizeSub b) s.imgdim) ∨
    (s.seq = .idle ∧ sizeMatches b s.imgdim = true ∧ s.loaded.get b = false ∧
      startEncode i b s = s.raiseError .resourceError 3 (errInfo 0 b.info)) ∨
    (s.seq = .idle ∧ sizeMatches b s.imgdim = true ∧ s.loaded.get b = true ∧
      startEncode i b s = s.beginEncode b b.format) := by
  unfold startEncode
  by_cases h : s.seq = .idle <;> cases hm : sizeMatches b s.imgdim <;> cases hl : s.loaded.get b <;> simp [h]

theorem pushPixel_cases (s : State) :
    (s.seq ≠ .encoding ∧ pushPixel s = s.sequenceError .push) ∨
    (s.seq = .encoding ∧ s.adim.entries ≤ s.nextDest.toNat ∧
      pushPixel s = s.raiseError .destOutOfRange s.adim.sub (errInfo s.nextDest s.idx)) ∨
    (s.seq = .encoding ∧ s.nextDest.toNat < s.adim.entries ∧ s.idx.toNat + 1 = s.adim.entries ∧
      pushPixel s = (s.putPixel s.nextDest s.nextPixel).finishEncode) ∨
    (s.seq = .encoding ∧ s.nextDest.toNat < s.adim.entries ∧ s.idx.toNat + 1 ≠ s.adim.entries ∧
      pushPixel s = s.putPixel s.nextDest s.nextPixel) := by
  unfold pushPixel
  by_cases h : s.seq = .encoding
  · by_cases hd : s.adim.entries ≤ s.nextDest.toNat
    · simp [h, hd]
    · by_cases hx : s.idx.toNat + 1 = s.adim.entries
      · simp [h, hd, hx, Nat.lt_of_not_le hd]
      · simp [h, hd, hx, Nat.lt_of_not_le hd]
  · simp [h]

/-- What the effect of a command can be, for all commands at once. -/
inductive EffectOf (s : State) : Instr → State → Prop where
  /-- NOP. -/
  | nop : EffectOf s .nop s
  /-- Error entry. -/
  | raise (i : Instr) (c : ErrCode) (n : BitVec 4) (v : Word) (hc : c ≠ .none) : EffectOf s i (s.raiseError c n v)
  /-- MAPBEGIN. -/
  | beginLoad (i : Instr) (b : Dim) (hi : (i, b) ∈ [(Instr.mapbeginD24, Dim.d24), (.mapbeginD48, .d48), (.mapbeginD256, .d256)])
      (h : s.seq = .idle) (hl : s.loaded.get b = false) : EffectOf s i (s.beginLoad b)
  /-- MAPENTRY. -/
  | appendEntry (v : Entry) (h : s.seq = .loading) (hl : s.lcnt.toNat ≠ s.lbank.entries) :
      EffectOf s (.mapentry v) (s.appendEntry v)
  /-- MAPEND. -/
  | endLoad (h : s.seq = .loading) (hl : s.lcnt.toNat = s.lbank.entries) : EffectOf s .mapend s.endLoad
  /-- MAPVERIFY. -/
  | recordVerify (i : Instr) (b : Dim)
      (hi : (i, b) ∈ [(Instr.mapverifyD24, Dim.d24), (.mapverifyD48, .d48), (.mapverifyD256, .d256)])
      (h : s.seq = .idle) (hl : s.loaded.get b = true) : EffectOf s i (s.recordVerify b (s.tableIsBijection b))
  /-- QUANT. -/
  | setQout (i : Instr) (f : Format) (hi : (i, f) ∈ [(Instr.quantRgb565, Format.rgb565), (.quantRgba4444, .rgba4444)]) :
      EffectOf s i (s.setQout (quantize f s.pix))
  /-- START. -/
  | beginEncode (i : Instr) (b : Dim) (hi : (i, b) ∈ [(Instr.startD24, Dim.d24), (.startD48, .d48), (.startD256, .d256)])
      (h : s.seq = .idle) (hm : sizeMatches b s.imgdim = true) (hl : s.loaded.get b = true) :
      EffectOf s i (s.beginEncode b b.format)
  /-- The last PUSH of an encode. -/
  | lastPixel (h : s.seq = .encoding) (hd : s.nextDest.toNat < s.adim.entries)
      (hx : s.idx.toNat + 1 = s.adim.entries) :
      EffectOf s .push (s.putPixel s.nextDest s.nextPixel).finishEncode
  /-- Any other PUSH. -/
  | pixel (h : s.seq = .encoding) (hd : s.nextDest.toNat < s.adim.entries)
      (hx : s.idx.toNat + 1 ≠ s.adim.entries) : EffectOf s .push (s.putPixel s.nextDest s.nextPixel)

/-- Everything a command can do. -/
theorem effect_cases (i : Instr) (s : State) : EffectOf s i (effect i s) := by
  have hb : ∀ b, (i, b) ∈ [(Instr.mapbeginD24, Dim.d24), (.mapbeginD48, .d48), (.mapbeginD256, .d256)] →
      EffectOf s i (mapBegin i b s) := fun b hi => by
    rcases mapBegin_cases i b s with ⟨_, e⟩ | ⟨_, _, e⟩ | ⟨h, hl, e⟩ <;> rw [e]
    · exact .raise _ _ _ _ (by decide)
    · exact .raise _ _ _ _ (by decide)
    · exact .beginLoad i b hi h hl
  have hv : ∀ b, (i, b) ∈ [(Instr.mapverifyD24, Dim.d24), (.mapverifyD48, .d48), (.mapverifyD256, .d256)] →
      EffectOf s i (mapVerify i b s) := fun b hi => by
    rcases mapVerify_cases i b s with ⟨_, e⟩ | ⟨_, _, e⟩ | ⟨h, hl, e⟩ <;> rw [e]
    · exact .raise _ _ _ _ (by decide)
    · exact .raise _ _ _ _ (by decide)
    · exact .recordVerify i b hi h hl
  have hs : ∀ b, (i, b) ∈ [(Instr.startD24, Dim.d24), (.startD48, .d48), (.startD256, .d256)] →
      EffectOf s i (startEncode i b s) := fun b hi => by
    rcases startEncode_cases i b s with ⟨_, e⟩ | ⟨_, _, e⟩ | ⟨_, _, _, e⟩ | ⟨h, hm, hl, e⟩ <;> rw [e]
    · exact .raise _ _ _ _ (by decide)
    · exact .raise _ _ _ _ (by decide)
    · exact .raise _ _ _ _ (by decide)
    · exact .beginEncode i b hi h hm hl
  cases i with
  | nop => exact .nop
  | mapbeginD24 => exact hb .d24 (by simp)
  | mapbeginD48 => exact hb .d48 (by simp)
  | mapbeginD256 => exact hb .d256 (by simp)
  | mapentry v =>
    show EffectOf s _ (mapAppend v s)
    rcases mapAppend_cases v s with ⟨_, e⟩ | ⟨_, _, e⟩ | ⟨h, hl, e⟩ <;> rw [e]
    · exact .raise _ _ _ _ (by decide)
    · exact .raise _ _ _ _ (by decide)
    · exact .appendEntry v h hl
  | mapend =>
    show EffectOf s _ (mapEnd s)
    rcases mapEnd_cases s with ⟨_, e⟩ | ⟨_, _, _, e⟩ | ⟨_, _, _, e⟩ | ⟨h, hl, e⟩ <;> rw [e]
    · exact .raise _ _ _ _ (by decide)
    · exact .raise _ _ _ _ (by decide)
    · exact .raise _ _ _ _ (by decide)
    · exact .endLoad h hl
  | mapverifyD24 => exact hv .d24 (by simp)
  | mapverifyD48 => exact hv .d48 (by simp)
  | mapverifyD256 => exact hv .d256 (by simp)
  | quantRgb565 => exact .setQout _ .rgb565 (by simp)
  | quantRgba4444 => exact .setQout _ .rgba4444 (by simp)
  | startD24 => exact hs .d24 (by simp)
  | startD48 => exact hs .d48 (by simp)
  | startD256 => exact hs .d256 (by simp)
  | push =>
    show EffectOf s _ (pushPixel s)
    rcases pushPixel_cases s with ⟨_, e⟩ | ⟨_, _, e⟩ | ⟨h, hd, hx, e⟩ | ⟨h, hd, hx, e⟩ <;> rw [e]
    · exact .raise _ _ _ _ (by decide)
    · exact .raise _ _ _ _ (by decide)
    · exact .lastPixel h hd hx
    · exact .pixel h hd hx

/-! ### Transactions -/

/-- A CMD write answers next in one of three ways: discarded, a command, or IllegalCommand. -/
theorem writeCmd_next (cfg : Config) (c : Word) (s t : State) :
    writeCmd cfg c s = .next t ↔ (s.seq = .error ∧ t = s) ∨
      (s.seq ≠ .error ∧ ∃ i, decode cfg.hasVerify c = .ok i ∧ t = effect i s) ∨
      (s.seq ≠ .error ∧ ∃ e, decode cfg.hasVerify c = .error e ∧
        t = s.raiseError .illegalCommand e.sub (commandInfo c)) := by
  unfold writeCmd
  by_cases h : s.seq = .error
  · simp [h, eq_comm]
  · cases hd : decode cfg.hasVerify c with
    | ok i => simp [h, exec_eq_command, command_eq s _ h, eq_comm]
    | error e => simp [h, eq_comm]

/-- Everything one transaction can do, when it answers a next state. -/
inductive TxnOf (cfg : Config) (s : State) : HostTxn → State → Prop where
  /-- A read that returned a value. -/
  | read (a : Offset) (w : Width) (v : Word) (h : hostRead a w s = .ok v) :
      TxnOf cfg s (.read a w) (s.setReply (some v))
  /-- A write that is ignored, or a command discarded in ERROR. -/
  | ignored (a : Offset) (w : Width) (v : Word) (h : a ≠ 0 ∨ s.seq = .error) :
      TxnOf cfg s (.write a w v) (s.setReply none)
  /-- A write of PIX. -/
  | pix (v : Word) : TxnOf cfg s (.write 4 .w32 v) ((s.setReply none).setPix v)
  /-- A write of IMGDIM. -/
  | imgdim (v : Word) : TxnOf cfg s (.write 8 .w32 v) ((s.setReply none).setImgdim v)
  /-- A command. -/
  | command (c : Word) (i : Instr) (h : s.seq ≠ .error) (hd : decode cfg.hasVerify c = .ok i) :
      TxnOf cfg s (.write 0 .w32 c) (effect i (s.setReply none))
  /-- An illegal word. -/
  | illegal (c : Word) (e : IllegalCause) (h : s.seq ≠ .error) (hd : decode cfg.hasVerify c = .error e) :
      TxnOf cfg s (.write 0 .w32 c) ((s.setReply none).raiseError .illegalCommand e.sub (commandInfo c))
  /-- Reset. -/
  | reset : TxnOf cfg s .reset s.applyReset

/-- In the register space a legal access is 32 bits wide (R50). -/
theorem legalAccess_register (a : Offset) (w : Width) (h : legalAccess a w = true) (hw : inWindow a = false) :
    w = .w32 := by
  simp only [legalAccess, hw, Bool.false_or, Bool.and_eq_true, beq_iff_eq] at h
  exact h.2

/-- Everything one transaction can do. -/
theorem transact_cases (cfg : Config) (x : HostTxn) (s t : State) (h : transact cfg x s = .next t) :
    TxnOf cfg s x t := by
  cases x with
  | read a w =>
    simp only [transact] at h
    cases hr : hostRead a w s with
    | ok v => rw [hr] at h; cases h; exact .read a w v hr
    | error f => rw [hr] at h; cases h
  | reset => cases h; exact .reset
  | write a w v =>
    simp only [transact, hostWrite] at h
    split at h
    · cases h
    rename_i hleg
    simp only [Bool.not_eq_false] at hleg
    split at h
    · rename_i hw
      cases h
      refine .ignored a w v (.inl fun ha => ?_)
      subst ha
      simp [inWindow] at hw
    · rename_i hw
      simp only [Bool.not_eq_true] at hw
      obtain rfl := legalAccess_register a w hleg hw
      simp only [writeRegister] at h
      split at h
      · rename_i ha
        subst ha
        rcases (writeCmd_next cfg v _ t).1 h with ⟨he, rfl⟩ | ⟨hne, i, hd, rfl⟩ | ⟨hne, e, hd, rfl⟩
        · exact .ignored _ _ _ (.inr he)
        · exact .command v i hne hd
        · exact .illegal v e hne hd
      · split at h
        · rename_i ha; subst ha; cases h; exact .pix v
        · split at h
          · rename_i ha; subst ha; cases h; exact .imgdim v
          · rename_i h0 _ _; cases h; exact .ignored _ _ _ (.inl h0)

/-- One step serves the oldest transaction, or idles. -/
theorem step_cases (s t : State) (h : step s = .next t) :
    (s.inbox = [] ∧ t = s) ∨
    ∃ x xs, s.inbox = x :: xs ∧ TxnOf Config.tpq1 (s.setInbox xs) x t := by
  unfold step serveNext at h
  split at h
  · rename_i he; cases h; exact .inl ⟨he, rfl⟩
  · rename_i x xs he; exact .inr ⟨x, xs, he, transact_cases _ _ _ _ h⟩

/-- A run through a step that answers next. -/
theorem run_next (M : Host.Core) (k : Nat) (s u : M.State) (h : M.step s = .next u) :
    M.run (k + 1) s = M.run k u := by
  rw [Host.Core.run, h]

/-- A run that answers next went through a first step that did. -/
theorem run_succ_next (M : Host.Core) (k : Nat) (s t : M.State) (h : M.run (k + 1) s = .next t) :
    ∃ u, M.step s = .next u ∧ M.run k u = .next t := by
  rw [Host.Core.run] at h
  cases hs : M.step s with
  | next u => rw [hs] at h; exact ⟨u, rfl, h⟩
  | fault f => rw [hs] at h; cases h
  | refused r => rw [hs] at h; cases h

/-- `serve` of two lists in a row. -/
theorem serve_append (cfg : Config) (xs ys : List HostTxn) (s t : State) (h : serve cfg xs s = .next t) :
    serve cfg (xs ++ ys) s = serve cfg ys t := by
  induction xs generalizing s with
  | nil => cases h; rfl
  | cons x xs ih =>
    simp only [serve, List.cons_append] at h ⊢
    cases hx : transact cfg x s with
    | next s' => rw [hx] at h; exact ih s' h
    | fault f => rw [hx] at h; cases h
    | refused r => rw [hx] at h; cases h

end Sys2Proof.Machine
end

