-- ==== Sys2Proof/Laws/PerInstr.lean ====
section
/-! SUPPORT. Laws stated once for each command: the reserved parts of its word (spec/30_encoding.md R73, R76). -/

namespace Sys2Proof.Laws.ReservedZero

open Sys2Proof

/-- RZ is zero and OP is none of the reserved values 8 to 15 in the command's word (R73, R76). -/
def Statement (i : Instr) : Prop := Word.rz (encode i) = 0 ∧ Word.op (encode i) < 8#4

theorem nop : Statement .nop := ⟨rz_wordOf .., by decide⟩
theorem mapbeginD24 : Statement .mapbeginD24 := ⟨rz_wordOf .., by decide⟩
theorem mapbeginD48 : Statement .mapbeginD48 := ⟨rz_wordOf .., by decide⟩
theorem mapbeginD256 : Statement .mapbeginD256 := ⟨rz_wordOf .., by decide⟩
theorem mapentry (v : Entry) : Statement (.mapentry v) :=
  ⟨rz_wordOf .., by show Word.op (wordOf 2 0 0 v) < _; rw [op_wordOf]; decide⟩
theorem mapend : Statement .mapend := ⟨rz_wordOf .., by decide⟩
theorem mapverifyD24 : Statement .mapverifyD24 := ⟨rz_wordOf .., by decide⟩
theorem mapverifyD48 : Statement .mapverifyD48 := ⟨rz_wordOf .., by decide⟩
theorem mapverifyD256 : Statement .mapverifyD256 := ⟨rz_wordOf .., by decide⟩
theorem quantRgb565 : Statement .quantRgb565 := ⟨rz_wordOf .., by decide⟩
theorem quantRgba4444 : Statement .quantRgba4444 := ⟨rz_wordOf .., by decide⟩
theorem startD24 : Statement .startD24 := ⟨rz_wordOf .., by decide⟩
theorem startD48 : Statement .startD48 := ⟨rz_wordOf .., by decide⟩
theorem startD256 : Statement .startD256 := ⟨rz_wordOf .., by decide⟩
theorem push : Statement .push := ⟨rz_wordOf .., by decide⟩

end Sys2Proof.Laws.ReservedZero
end

