-- ==== Sys2Proof/Tests/Slice0.lean ====
section
/-! SUPPORT. The model's own tests. Expected words and values come from spec/30_encoding.md R73 and R74 and from
spec/95_test_vectors.md (row names E, V, M, N, B, P); and for every statement with hypotheses a state that meets them. -/

namespace Sys2Proof.Tests

open Sys2Proof Sys2Proof.Machine

/-! ### WellFormed: the one check, and what it refuses -/

theorem test_verify_refused_where_absent :
    Instr.wellFormed ⟨false⟩ .mapverifyD24 = false ∧ Instr.wellFormed ⟨false⟩ .mapverifyD48 = false ∧
    Instr.wellFormed ⟨false⟩ .mapverifyD256 = false ∧ Instr.wellFormed ⟨true⟩ .mapverifyD256 = true := by decide

/-! ### Decode: the words of R73, written out as OP, DIM, FMT, RZ, IMM16 -/

theorem test_decode_nop : decode true 0b0000_00_0_000000000_0000000000000000 = .ok .nop := rfl
theorem test_decode_mapbegin_d24 : decode true 0b0001_00_0_000000000_0000000000000000 = .ok .mapbeginD24 := rfl
theorem test_decode_mapbegin_d48 : decode true 0b0001_01_0_000000000_0000000000000000 = .ok .mapbeginD48 := rfl
theorem test_decode_mapbegin_d256 : decode true 0b0001_10_0_000000000_0000000000000000 = .ok .mapbeginD256 := rfl
theorem test_decode_mapentry : decode true 0b0010_00_0_000000000_1000001001011001 = .ok (.mapentry 0x8259) := rfl
theorem test_decode_mapend : decode true 0b0011_00_0_000000000_0000000000000000 = .ok .mapend := rfl
theorem test_decode_mapverify_d24 : decode true 0b0100_00_0_000000000_0000000000000000 = .ok .mapverifyD24 := rfl
theorem test_decode_mapverify_d48 : decode true 0b0100_01_0_000000000_0000000000000000 = .ok .mapverifyD48 := rfl
theorem test_decode_mapverify_d256 : decode true 0b0100_10_0_000000000_0000000000000000 = .ok .mapverifyD256 := rfl
theorem test_decode_quant_rgb565 : decode true 0b0101_00_0_000000000_0000000000000000 = .ok .quantRgb565 := rfl
theorem test_decode_quant_rgba4444 : decode true 0b0101_00_1_000000000_0000000000000000 = .ok .quantRgba4444 := rfl
theorem test_decode_start_d24 : decode true 0b0110_00_0_000000000_0000000000000000 = .ok .startD24 := rfl
theorem test_decode_start_d48 : decode true 0b0110_01_0_000000000_0000000000000000 = .ok .startD48 := rfl
theorem test_decode_start_d256 : decode true 0b0110_10_1_000000000_0000000000000000 = .ok .startD256 := rfl
theorem test_decode_push : decode true 0b0111_00_0_000000000_0000000000000000 = .ok .push := rfl

/-- The words of R73 in hexadecimal, as the encoder gives them. -/
theorem test_encode_words :
    [Instr.nop, .mapbeginD24, .mapbeginD48, .mapbeginD256, .mapentry 0xFFFF, .mapend, .mapverifyD24, .mapverifyD48,
      .mapverifyD256, .quantRgb565, .quantRgba4444, .startD24, .startD48, .startD256, .push].map encode =
    [0x00000000, 0x10000000, 0x14000000, 0x18000000, 0x2000FFFF, 0x30000000, 0x40000000, 0x44000000,
      0x48000000, 0x50000000, 0x52000000, 0x60000000, 0x64000000, 0x6A000000, 0x70000000] := by decide

theorem test_decodeTableWord : decodeTableWord 32 0x6A000000 = some .startD256 ∧ decodeTableWord 32 0x68000000 = none :=
  ⟨rfl, rfl⟩

/-! ### Runs from reset -/

/-- The state after a host that goes on past its faults. -/
def after (xs : List HostTxn) : State := (session Config.tpq1 xs State.reset).2

/-- A write of a word to CMD. -/
def cmd (w : Word) : HostTxn := .write 0x00 .w32 w

/-- STATUS and ERRINFO after one word from reset. -/
def afterWord (w : Word) : Word × Word := ((after [cmd w]).status, (after [cmd w]).errinfo)

/-- Rows E1 to E11. -/
theorem test_illegal_words_first :
    [0x00000000, 0x80000000, 0xF0000000, 0x1C000000, 0x4C000000, 0x6C000000, 0x10010000, 0x11000000, 0x00000001,
      0x02000000, 0x04000000].map afterWord =
    [(0x00000000, 0x00000000), (0x00000037, 0x80000000), (0x00000037, 0xF0000000), (0x00000237, 0x1C000000),
      (0x00000237, 0x4C000000), (0x00000237, 0x6C000000), (0x00000137, 0x10010000), (0x00000137, 0x11000000),
      (0x00000137, 0x00000000), (0x00000137, 0x02000000), (0x00000137, 0x04000000)] := by decide

/-- Rows E12 to E21. -/
theorem test_illegal_words_second :
    [0x20800000, 0x30000001, 0x50000001, 0x54000000, 0x60000005, 0x70000001, 0x7C000000, 0x62000000, 0x66000000,
      0x68000000].map afterWord =
    [(0x00000137, 0x20800000), (0x00000137, 0x30000000), (0x00000137, 0x50000000), (0x00000137, 0x54000000),
      (0x00000137, 0x60000000), (0x00000137, 0x70000000), (0x00000137, 0x7C000000), (0x00000337, 0x62000000),
      (0x00000337, 0x66000000), (0x00000337, 0x68000000)] := by decide

/-- Row E22. -/
theorem test_verify_absent :
    (session ⟨false⟩ [cmd 0x40000000] State.reset).2.status = 0x00000037 ∧
    (session ⟨false⟩ [cmd 0x40000000] State.reset).2.errinfo = 0x40000000 := by decide

/-- Row E23. -/
theorem test_error_gate : (after [cmd 0x80000000, cmd 0x00000000, cmd 0x10000000]).status = 0x00000037 ∧
    (after [cmd 0x80000000, cmd 0x00000000, cmd 0x10000000]).errinfo = 0x80000000 := by decide

/-! ### The quantizer: rows V1 to V18 -/

theorem test_q565 :
    [0x00000000, 0x0F0F0F0F, 0xF0F0F0F0, 0xFFFFFFFF, 0xFF0000FF, 0x00FF0000, 0x0000FF00, 0x000000FF, 0x12345678,
      0xABCDEF89, 0x07030700, 0x08040800, 0x10101010, 0x80808080, 0x7F7F7F7F, 0xFFFFFF00, 0xC0C0C0C0,
      0x04FC0400].map (quantize .rgb565) =
    [0x0000, 0x0861, 0xF79E, 0xFFFF, 0xF800, 0x07E0, 0x001F, 0x0000, 0x11AA, 0xAE7D, 0x0000, 0x0821, 0x1082, 0x8410,
      0x7BEF, 0xFFFF, 0xC618, 0x07E0] := by decide

theorem test_q4444 :
    [0x00000000, 0x0F0F0F0F, 0xF0F0F0F0, 0xFFFFFFFF, 0xFF0000FF, 0x00FF0000, 0x0000FF00, 0x000000FF, 0x12345678,
      0xABCDEF89, 0x07030700, 0x08040800, 0x10101010, 0x80808080, 0x7F7F7F7F, 0xFFFFFF00, 0xC0C0C0C0,
      0x04FC0400].map (quantize .rgba4444) =
    [0x0000, 0x0000, 0xFFFF, 0xFFFF, 0xF00F, 0x0F00, 0x00F0, 0x000F, 0x1357, 0xACE8, 0x0000, 0x0000, 0x1111, 0x8888,
      0x7777, 0xFFF0, 0xCCCC, 0x0F00] := by decide

/-- Section 2.2: QUANT in LOADING. -/
theorem test_quant_in_loading :
    (after [cmd 0x10000000, .write 0x04 .w32 0x12345678, cmd 0x50000000]).qout = 0x11AA ∧
    (after [cmd 0x10000000, .write 0x04 .w32 0x12345678, cmd 0x50000000]).status = 0x00000001 := by decide

/-! ### Tables and states for the tests -/

/-- A table with entry f i at each index i below n. -/
@[irreducible] def fill {α : Type} (n : Nat) (f : Nat → α) : Memory α := (List.range n).map (fun i => (i, f i))

theorem wf_range' {α : Type} (f : Nat → α) (n k : Nat) :
    Memory.wf ((List.range' k n).map (fun i => (i, f i))) = true := by
  induction n generalizing k with
  | zero => rfl
  | succ n ih =>
    rw [List.range'_succ, List.map_cons, Memory.wf_cons_iff]
    refine ⟨fun l v h => ?_, ih (k + 1)⟩
    cases n with
    | zero => cases h
    | succ n =>
      rw [List.range'_succ, List.map_cons, List.head?_cons, Option.some.injEq, Prod.mk.injEq] at h
      omega

theorem cellRead_range' {α : Type} (f : Nat → α) (n k a : Nat) :
    cellRead ((List.range' k n).map (fun i => (i, f i))) a = if k ≤ a ∧ a < k + n then some (f a) else none := by
  induction n generalizing k with
  | zero =>
    rw [if_neg (by omega)]; rfl
  | succ n ih =>
    rw [List.range'_succ, List.map_cons, cellRead]
    split
    · rename_i h
      subst h
      rw [if_pos (by omega)]
    · rename_i h
      rw [ih (k + 1)]
      by_cases hk : k ≤ a ∧ a < k + (n + 1)
      · rw [if_pos hk, if_pos (by omega)]
      · rw [if_neg hk, if_neg (by omega)]

theorem fill_wf {α : Type} (n : Nat) (f : Nat → α) : Memory.wf (fill n f) = true := by
  rw [fill, List.range_eq_range']
  exact wf_range' f n 0

theorem fill_read {α : Type} (n : Nat) (f : Nat → α) (a : Nat) :
    cellRead (fill n f) a = if a < n then some (f a) else none := by
  rw [fill, List.range_eq_range', cellRead_range']
  simp

/-- Bank 0 loaded with a table, nothing else done. -/
def ready (f : Nat → Entry) : State :=
  { State.reset with loaded := ⟨true, false, false⟩, map := ⟨fill 576 f, [], []⟩, lcnt := 576 }

/-- Bank 0 received all its entries, and MAPEND comes next. -/
def fullLoad (f : Nat → Entry) : State :=
  { State.reset with
    seq := .loading, map := ⟨fill 576 f, [], []⟩, lcnt := 576, inbox := [cmd 0x30000000] }

/-- An encode of bank 0 in sequencer state q that pushed k pixels and so wrote the first n bytes; START comes next. -/
def encodeOf (f : Nat → Entry) (n : Nat) (q : Seq) (k : BitVec 16) (v : Bool) : State :=
  { ready f with
    seq := q, bvalid := v, idx := k, out := fill n (fun _ => 0), wr := fill n (fun _ => ()), imgdim := 0x00180018
    inbox := [cmd 0x60000000] }

/-- A complete encode of bank 0 that wrote the first n bytes. -/
def blob (f : Nat → Entry) (n : Nat) : State := encodeOf f n .idle 576 true

/-- The identity table. -/
def ident (i : Nat) : Entry := BitVec.ofNat 16 i

theorem ready_entry (f : Nat → Entry) (i : Nat) (h : i < 576) : (ready f).mapEntry .d24 i = f i := by
  show (cellRead (fill 576 f) i).getD _ = _
  rw [fill_read, if_pos h]; rfl

theorem fullLoad_inv (f : Nat → Entry) : (fullLoad f).Inv where
  outWf := rfl
  wrWf := rfl
  mapWf := by intro b; cases b <;> first | exact fill_wf _ _ | rfl
  outRange := by intro o v h; cases h
  mapRange := by
    intro b i v h
    cases b with
    | d24 =>
      change cellRead (fill 576 f) i = some v at h
      rw [fill_read] at h
      by_cases hi : i < 576
      · exact hi
      · rw [if_neg hi] at h; cases h
    | d48 => cases h
    | d256 => cases h
  markedWritten := by intro o h; cases h
  markedInBlob := by intro o h; cases h
  markedFromTable := by
    intro o
    refine ⟨fun h => (by cases h), fun ⟨x, hx, _⟩ => ?_⟩
    exact absurd hx (Nat.not_lt_zero _)
  lcntLe := le_of_eq rfl
  idxLe := Nat.zero_le _
  idxLoaded := fun h => absurd h (Nat.not_lt_zero _)
  loadingBank := by
    intro _
    refine ⟨rfl, fun i hi => ⟨f i, ?_⟩⟩
    change i < 576 at hi
    show cellRead (fill 576 f) i = _
    rw [fill_read, if_pos hi]
  loadedFull := by intro b h; cases b <;> cases h
  encodingOpen := by intro h; cases h
  blobComplete := by intro h; cases h
  errState := ⟨fun _ h => (by cases h), fun _ => rfl⟩
  errClear := fun _ => ⟨rfl, rfl⟩
  formatPaired := rfl
  verified := by intro h; cases h
  unverified := by intro _; exact ⟨rfl, rfl⟩

/-- The invariant of an encode that is complete, or open with no blob. -/
theorem encodeOf_inv (f : Nat → Entry) (n : Nat) (q : Seq) (k : BitVec 16) (v : Bool) (hn : n ≤ 1152)
    (hm : ∀ o, o < n ↔ ∃ x, x < k.toNat ∧ (f x).toNat = o / 2)
    (hq : (q = .idle ∧ k = 576) ∨ (q = .encoding ∧ k.toNat < 576 ∧ v = false)) : (encodeOf f n q k v).Inv where
  outWf := fill_wf _ _
  wrWf := fill_wf _ _
  mapWf := by intro b; cases b <;> first | exact fill_wf _ _ | rfl
  outRange := by
    intro o v h
    change cellRead (fill n _) o = _ at h
    rw [fill_read] at h
    by_cases ho : o < n
    · omega
    · rw [if_neg ho] at h; cases h
  mapRange := by
    intro b i v h
    cases b with
    | d24 =>
      change cellRead (fill 576 f) i = some v at h
      rw [fill_read] at h
      by_cases hi : i < 576
      · exact hi
      · rw [if_neg hi] at h; cases h
    | d48 => cases h
    | d256 => cases h
  markedWritten := by
    intro o h
    change (cellRead (fill n _) o).isSome = true at h
    rw [fill_read] at h
    refine ⟨0, ?_⟩
    show cellRead (fill n _) o = _
    rw [fill_read]
    by_cases ho : o < n
    · rw [if_pos ho]
    · rw [if_neg ho] at h; cases h
  markedInBlob := by
    intro o h
    change (cellRead (fill n _) o).isSome = true at h
    rw [fill_read] at h
    by_cases ho : o < n
    · show o < 2 * 576
      omega
    · rw [if_neg ho] at h; cases h
  markedFromTable := by
    intro o
    have hw : (encodeOf f n q k v).marked o = true ↔ o < n := by
      show (cellRead (fill n _) o).isSome = true ↔ _
      rw [fill_read]
      by_cases ho : o < n <;> simp [ho]
    rw [hw, hm]
    refine exists_congr fun x => and_congr_right fun hx => ?_
    have hk : k.toNat ≤ 576 := by rcases hq with ⟨_, rfl⟩ | ⟨_, h, _⟩ <;> first | exact le_of_eq rfl | omega
    change x < k.toNat at hx
    rw [show (encodeOf f n q k v).mapEntry (encodeOf f n q k v).adim x = f x from ready_entry f x (by omega)]
  lcntLe := le_of_eq rfl
  idxLe := by rcases hq with ⟨_, rfl⟩ | ⟨_, h, _⟩ <;> first | exact le_of_eq rfl | exact Nat.le_of_lt h
  idxLoaded := fun _ => rfl
  loadingBank := by
    intro h
    change q = _ at h
    rcases hq with ⟨rfl, _⟩ | ⟨rfl, _, _⟩ <;> cases h
  loadedFull := by
    intro b h i hi
    cases b with
    | d24 =>
      change i < 576 at hi
      refine ⟨f i, ?_⟩
      show cellRead (fill 576 f) i = _
      rw [fill_read, if_pos hi]
    | d48 => cases h
    | d256 => cases h
  encodingOpen := by
    intro h
    change q = _ at h
    rcases hq with ⟨rfl, _⟩ | ⟨_, h, _⟩
    · cases h
    · exact ⟨h, rfl⟩
  blobComplete := by
    intro h
    change v = true at h
    rcases hq with ⟨rfl, rfl⟩ | ⟨_, _, rfl⟩
    · exact ⟨.inl rfl, rfl⟩
    · cases h
  errState := ⟨fun _ h => (by change q = _ at h; rcases hq with ⟨rfl, _⟩ | ⟨rfl, _, _⟩ <;> cases h), fun _ => rfl⟩
  errClear := fun _ => ⟨rfl, rfl⟩
  formatPaired := rfl
  verified := by intro h; cases h
  unverified := by intro _; exact ⟨rfl, rfl⟩

/-- The invariant of a complete encode. -/
theorem blob_inv (f : Nat → Entry) (n : Nat) (hn : n ≤ 1152)
    (hm : ∀ o, o < n ↔ ∃ x, x < 576 ∧ (f x).toNat = o / 2) : (blob f n).Inv :=
  encodeOf_inv f n .idle 576 true hn hm (.inl ⟨rfl, rfl⟩)

/-- The invariant of an encode just begun. -/
theorem begun_inv (f : Nat → Entry) : (encodeOf f 0 .encoding 0 false).Inv :=
  encodeOf_inv f 0 .encoding 0 false (Nat.zero_le _)
    (fun _ => ⟨fun h => absurd h (Nat.not_lt_zero _), fun ⟨_, h, _⟩ => absurd h (Nat.not_lt_zero _)⟩)
    (.inr ⟨rfl, by decide, rfl⟩)

/-- The identity table's encode wrote all 1152 bytes. -/
theorem ident_marks (o : Nat) : o < 1152 ↔ ∃ x, x < 576 ∧ (ident x).toNat = o / 2 := by
  constructor
  · intro h
    refine ⟨o / 2, by omega, ?_⟩
    rw [ident, BitVec.toNat_ofNat]
    omega
  · rintro ⟨x, hx, e⟩
    rw [ident, BitVec.toNat_ofNat] at e
    omega

/-- A table of zeros wrote only the two bytes of destination 0. -/
theorem zero_marks (o : Nat) : o < 2 ↔ ∃ x, x < 576 ∧ ((fun _ => 0 : Nat → Entry) x).toNat = o / 2 := by
  constructor
  · intro h
    exact ⟨0, by decide, by show 0 = o / 2; omega⟩
  · rintro ⟨x, _, e⟩
    change 0 = o / 2 at e
    omega

/-- The identity table is a bijection in every state that holds it. -/
theorem ident_bijective (s : State) (h : ∀ i, i < 576 → s.mapEntry .d24 i = ident i) : s.Bijective .d24 := by
  intro d hd
  change d < 576 at hd
  have e : ∀ i, i < 576 → (s.mapEntry .d24 i).toNat = i := fun i hi => by
    rw [h i hi, ident, BitVec.toNat_ofNat]
    omega
  exact ⟨d, hd, e d hd, fun y hy hyd => by rw [← e y hy, hyd]⟩

/-- An encode of bank 0 at index k whose table holds d there. -/
def encodingAt (k d : Nat) : State :=
  { State.reset with
    seq := .encoding, loaded := ⟨true, false, false⟩, map := ⟨[(k, BitVec.ofNat 16 d)], [], []⟩,
    idx := BitVec.ofNat 16 k, pix := 0xFF0000FF }

/-- An instance in ERROR. -/
def inError : State := { State.reset with seq := .error, err := .illegalCommand }

/-! ### Lookup-table load: rows M1, M2, M4, M8 to M11, M13, M15 -/

theorem test_mapbegin_d48 : (after [cmd 0x14000000]).status = 0x00100001 ∧ (after [cmd 0x14000000]).lcnt = 0 := by decide
theorem test_mapbegin_twice : (after [cmd 0x10000000, cmd 0x10000000]).status = 0x00000147 := by decide
theorem test_mapbegin_d24 : (after [cmd 0x10000000]).status = 0x00000001 := by decide
theorem test_mapbegin_d256 : (after [cmd 0x18000000]).status = 0x00200001 := by decide
theorem test_mapentry : (after [cmd 0x10000000, cmd 0x20000005]).status = 0x00000001 ∧
    (after [cmd 0x10000000, cmd 0x20000005]).map.d24 = [(0, 5)] ∧
    (after [cmd 0x10000000, cmd 0x20000005]).lcnt = 1 := by decide
theorem test_mapentry_in_idle : (after [cmd 0x20001234]).status = 0x00000047 ∧
    (after [cmd 0x20001234]).errinfo = 0x20000000 := by decide
theorem test_mapend_missing : (after [cmd 0x14000000, cmd 0x30000000]).status = 0x00100027 ∧
    (after [cmd 0x14000000, cmd 0x30000000]).errinfo = 0x00000000 := by decide
theorem test_mapend_in_idle : (after [cmd 0x30000000]).status = 0x00000047 ∧
    (after [cmd 0x30000000]).errinfo = 0x30000000 := by decide
theorem test_mapverify_d24_not_loaded : (after [cmd 0x40000000]).status = 0x00000327 ∧
    (after [cmd 0x40000000]).errinfo = 0x00000000 := by decide
theorem test_mapverify_d48_not_loaded : (after [cmd 0x44000000]).status = 0x00000327 ∧
    (after [cmd 0x44000000]).errinfo = 0x00000001 := by decide
theorem test_mapverify_d256_not_loaded : (after [cmd 0x48000000]).errinfo = 0x00000002 := by decide

/-- Row M5's report: 575 entries and MAPEND. -/
theorem test_mapend_truncated :
    exec .mapend { State.reset with seq := .loading, lcnt := 575 } = .next { State.reset with
      seq := .error, lcnt := 575, err := .resourceError, errsub := 1, errinfo := 0x0000023F } := rfl

/-- Row M3's last command. -/
theorem test_mapend_completes :
    exec .mapend { State.reset with seq := .loading, lcnt := 576 } =
      .next { State.reset with lcnt := 576, loaded := ⟨true, false, false⟩ } := rfl

/-- Row M6's last command. -/
theorem test_mapentry_too_many :
    exec (.mapentry 576) { State.reset with seq := .loading, lcnt := 576 } = .next { State.reset with
      seq := .error, lcnt := 576, err := .resourceError, errsub := 2, errinfo := 0x02400240 } := rfl

/-- Row M8's last command. -/
theorem test_mapbegin_loaded :
    exec .mapbeginD24 { State.reset with loaded := ⟨true, false, false⟩ } = .next { State.reset with
      loaded := ⟨true, false, false⟩, seq := .error, err := .mapImmutable, errinfo := 0x10000000 } := rfl

/-- Row M13's kind of table: a value that stands twice is found. -/
theorem test_distinct : distinct [0, 0, 2, 3] = false ∧ distinct [3, 2, 1, 0] = true ∧ distinct [1, 2, 3, 1] = false := by
  decide

/-! ### Encode: rows N1 to N9, N14 to N17 -/

theorem test_start_d24_size : (after [cmd 0x60000000]).status = 0x00000017 ∧
    (after [cmd 0x60000000]).errinfo = 0x00000000 := by decide
theorem test_start_d48_size : (after [.write 0x08 .w32 0x00180018, cmd 0x64000000]).status = 0x00000017 ∧
    (after [.write 0x08 .w32 0x00180018, cmd 0x64000000]).errinfo = 0x00180018 := by decide
theorem test_start_d256_size : (after [.write 0x08 .w32 0x00800100, cmd 0x6A000000]).status = 0x00000117 ∧
    (after [.write 0x08 .w32 0x00800100, cmd 0x6A000000]).errinfo = 0x00800100 := by decide
theorem test_start_d48_not_loaded : (after [.write 0x08 .w32 0x00300030, cmd 0x64000000]).status = 0x00000327 ∧
    (after [.write 0x08 .w32 0x00300030, cmd 0x64000000]).errinfo = 0x00000001 := by decide
theorem test_start_d256_not_loaded : (after [.write 0x08 .w32 0x01000080, cmd 0x6A000000]).status = 0x00000327 ∧
    (after [.write 0x08 .w32 0x01000080, cmd 0x6A000000]).errinfo = 0x00000002 := by decide
theorem test_start_d24_begins :
    exec .startD24 { State.reset with
      loaded := ⟨true, false, false⟩, imgdim := 0x00180018, bvalid := true, idx := 576, out := [(0, 7), (1, 8)]
      wr := [(0, ()), (1, ())] } =
    .next { State.reset with
      loaded := ⟨true, false, false⟩, imgdim := 0x00180018, seq := .encoding, out := [(0, 7), (1, 8)] } := rfl
theorem test_push_in_idle : (after [cmd 0x70000000]).status = 0x00000047 ∧
    (after [cmd 0x70000000]).errinfo = 0x70000000 := by decide

/-- Row N16 and program P2's second pixel: x = 1, d = 574, opaque red. -/
theorem test_push_writes :
    exec .push (encodingAt 1 574) = .next { encodingAt 1 574 with
      out := [(1148, 0x00), (1149, 0xF8)], wr := [(1148, ()), (1149, ())], idx := 2, qout := 0xF800 } := rfl

/-- Row N17: d = 600 at x = 3. -/
theorem test_push_out_of_range :
    exec .push (encodingAt 3 600) = .next { encodingAt 3 600 with
      seq := .error, err := .destOutOfRange, errinfo := 0x02580003 } := rfl

/-! ### The host bus: rows B1 to B14, and reads of a blob -/

/-- The responses of a host that goes on past its faults, from reset. -/
def responses (xs : List HostTxn) : List Response := (session Config.tpq1 xs State.reset).1

theorem test_bus_registers : responses [.read 0x20 .w32, .read 0x00 .w32, .read 0x24 .w32, .write 0x10 .w32 0xFFFFFFFF,
      .read 0x10 .w32, .write 0x10000 .w32 1, .read 0x10 .w8, .read 0x12 .w32] =
    [.value 0x54505131, .value 0, .value 0, .done, .value 0, .done, .fault .busError, .fault .busError] := by decide

theorem test_bus_operands : responses [.write 0x04 .w16 5, .read 0x04 .w32, .write 0x04 .w32 0x12345678,
      .read 0x04 .w32, .write 0x08 .w32 0x01000080, .read 0x08 .w32, cmd 0x80000000, .write 0x04 .w32 9, .read 0x04 .w32] =
    [.fault .busError, .value 0, .done, .value 0x12345678, .done, .value 0x01000080, .done, .done, .value 9] := by decide

theorem test_bus_window : responses [.read 0x10001 .w16, .read 0x10002 .w32, .read 0x10000 .w8] =
    [.fault .busError, .fault .busError, .fault .blobNotReady] := by decide

/-- Program P6's last reads: destination 0 written, destination 1 not. -/
theorem test_window_reads :
    (session Config.tpq1 [.read 0x10000 .w16, .read 0x10002 .w16, .read 0x10003 .w8, .read 0x10000 .w32,
        .read 0x10480 .w16]
      { State.reset with bvalid := true, out := [(0, 0xE0), (1, 0x07)], wr := [(0, ()), (1, ())] }).1 =
    [.value 0x07E0, .fault (.unwrittenRead 2), .fault (.unwrittenRead 3), .fault (.unwrittenRead 2),
      .fault (.unwrittenRead 1152)] := by decide

/-- Reset leaves ERROR (R129). -/
theorem test_reset_leaves_error : (after [cmd 0x80000000, .reset]).status = 0x00000000 := by decide

/-- `withFetchWord` makes the next step run the word. -/
theorem test_step_runs_the_word : step (State.reset.withFetchWord 32 0x14000000) =
    .next { State.reset with seq := .loading, lbank := .d48 } := rfl

/-- The assembler reads program P1's lines (R79). -/
theorem test_assembler :
    assembleText "WR PIX, 0x12345678 ; operand".toList = some [.write 0x04 .w32 0x12345678] ∧
    assembleText "quant RGBA4444".toList = some [.write 0x00 .w32 0x52000000] ∧
    assembleText "START d24, rgba4444".toList = none ∧ assembleText "RDH 1150".toList = some [.read 0x1047E .w16] := by
  decide

/-! ### Witnesses: for each statement with hypotheses, a state and operands that meet all of them -/

/-- An instance in IDLE whose bank b, for every b, is loaded or not. -/
def idle (l : Bool) : State := { State.reset with loaded := ⟨l, l, l⟩ }

/-- An instance in LOADING with k entries received by bank 1. -/
def loadingAt (k : Nat) : State := { State.reset with seq := .loading, lbank := .d48, lcnt := BitVec.ofNat 16 k }

theorem test_witness_decode_of_encode :
    Instr.wellFormed ⟨true⟩ .mapverifyD256 = true ∧ Instr.wellFormed ⟨false⟩ (.mapentry 0xFFFF) = true := by decide

theorem test_witness_encode_of_decode : decode false 0x2000FFFF = .ok (.mapentry 0xFFFF) ∧
    decode true 0x48000000 = .ok .mapverifyD256 := ⟨rfl, rfl⟩

/-- Words that are no command: the least reserved OP, the greatest word, and MAPVERIFY where it is absent. -/
theorem test_witness_legal_words : State.reset.seq ≠ .error ∧ (∀ i, decode true 0x80000000 ≠ .ok i) ∧
    (∀ i, decode true 0xFFFFFFFF ≠ .ok i) ∧ (∀ i, decode false 0x40000000 ≠ .ok i) :=
  ⟨by decide, fun _ h => (by cases h), fun _ h => (by cases h), fun _ h => (by cases h)⟩

theorem test_witness_step_runs : ({ State.reset with inbox := [cmd 0x50000000] } : State).inbox =
    .write 0x00 .w32 0x50000000 :: [] ∧ decode Config.tpq1.hasVerify 0x50000000 = .ok .quantRgb565 := ⟨rfl, rfl⟩

theorem test_witness_step_idle : State.reset.inbox = [] := rfl

theorem test_witness_error_gate : inError.seq = .error ∧ rdTxn .status ≠ .reset ∧
    transact Config.tpq1 (rdTxn .status) inError = .next (inError.setReply (some inError.status)) :=
  ⟨rfl, by decide, rfl⟩

theorem test_witness_error_lasts : ({ inError with inbox := [cmd 0] } : State).seq = .error ∧
    HostTxn.reset ∉ ({ inError with inbox := [cmd 0] } : State).inbox ∧
    Sys2Proof.core.run 2 { inError with inbox := [cmd 0] } = .next inError := ⟨rfl, by decide, rfl⟩

/-- A change of STATE for each of R21's six events. -/
theorem test_witness_transitions :
    (∃ t, transact Config.tpq1 .reset inError = .next t ∧ t.seq ≠ inError.seq) ∧
    (∃ t, transact Config.tpq1 (cmd 0x70000000) State.reset = .next t ∧ t.seq = .error) ∧
    (∃ t, transact Config.tpq1 (cmd 0x14000000) State.reset = .next t ∧ t.seq = .loading) ∧
    (∃ t, transact Config.tpq1 (cmd 0x30000000) (loadingAt 2304) = .next t ∧ t.seq = .idle) ∧
    (∃ t, transact Config.tpq1 (cmd 0x60000000) { idle true with imgdim := 0x00180018 } = .next t ∧ t.seq = .encoding) ∧
    (∃ t, transact Config.tpq1 (cmd 0x70000000) (encodingAt 575 0) = .next t ∧ t.seq = .idle) :=
  ⟨⟨_, rfl, by decide⟩, ⟨_, rfl, rfl⟩, ⟨_, rfl, rfl⟩, ⟨_, rfl, rfl⟩, ⟨_, rfl, rfl⟩, ⟨_, rfl, rfl⟩⟩

theorem test_witness_legality : State.reset.seq ≠ .error ∧ Instr.push.runsIn State.reset.seq = false ∧
    Instr.mapbeginD24.runsIn State.reset.seq = true := by decide

theorem test_witness_error_entry : ∃ t, State.reset.seq ≠ .error ∧ exec .push State.reset = .next t ∧ t.seq = .error :=
  ⟨_, by decide, rfl, rfl⟩

theorem test_witness_nop_words : decode false 0x00000000 = .ok .nop ∧ (0x0FFFFFFF : Word).toNat / 2 ^ 28 = 0 ∧ (0x0FFFFFFF : Word) ≠ 0 ∧
    (0x00000001 : Word).toNat / 2 ^ 28 = 0 ∧ (0x00000001 : Word) ≠ 0 := by decide

theorem test_witness_mapbegin : (idle false).seq = .idle ∧ (∀ b, (idle false).loaded.get b = false) ∧
    (idle true).seq = .idle ∧ ∀ b, (idle true).loaded.get b = true :=
  ⟨rfl, fun b => by cases b <;> rfl, rfl, fun b => by cases b <;> rfl⟩

/-- The first and the last entry of a load, and the one after it. -/
theorem test_witness_mapentry : (loadingAt 0).seq = .loading ∧ (loadingAt 0).lcnt.toNat < (loadingAt 0).lbank.entries ∧
    (loadingAt 2303).lcnt.toNat < (loadingAt 2303).lbank.entries ∧
    (loadingAt 2304).lcnt.toNat = (loadingAt 2304).lbank.entries := by decide

/-- MAPEND of a complete load, of an empty one and of one short by one. -/
theorem test_witness_mapend : (loadingAt 2304).seq = .loading ∧
    (loadingAt 2304).lcnt.toNat = (loadingAt 2304).lbank.entries ∧
    (loadingAt 0).lcnt.toNat ≠ (loadingAt 0).lbank.entries ∧ (loadingAt 0).lcnt = 0 ∧
    (loadingAt 2303).lcnt.toNat ≠ (loadingAt 2303).lbank.entries ∧ (loadingAt 2303).lcnt ≠ 0 := by decide

theorem test_witness_mapverify : (ready ident).seq = .idle ∧ (ready ident).loaded.get .d24 = true ∧
    (ready ident).Bijective .d24 := ⟨rfl, rfl, ident_bijective _ (ready_entry ident)⟩

theorem test_witness_unloaded : (idle false).seq = .idle ∧ (∀ b, (idle false).loaded.get b = false) ∧
    ({ idle false with imgdim := 0x01000080 } : State).imgdim =
      BitVec.ofNat 32 (Dim.d256.width * 2 ^ 16 + Dim.d256.height) :=
  ⟨rfl, fun b => by cases b <;> rfl, rfl⟩

/-- Each clause about LOADED has its case: a reset, a MAPEND that sets the bit, a loaded bank, and MAPBEGIN of one. -/
theorem test_witness_immutable :
    ((blob ident 1152).Inv ∧ transact Config.tpq1 .reset (blob ident 1152) = .next (blob ident 1152).applyReset ∧
      cmd 0x10000000 ≠ .reset ∧ (blob ident 1152).loaded.get .d24 = true ∧ (blob ident 1152).seq = .idle ∧
      ∃ t, transact Config.tpq1 (.write 0x00 .w32 (encode (mapbeginOf .d24))) (blob ident 1152) = .next t) ∧
    ((fullLoad ident).Inv ∧ (fullLoad ident).loaded.get .d24 = false ∧
      ∃ t, transact Config.tpq1 (.write 0x00 .w32 (encode .mapend)) (fullLoad ident) = .next t ∧
        t.loaded.get .d24 = true) :=
  ⟨⟨blob_inv ident 1152 (Nat.le_refl _) ident_marks, rfl, by decide, rfl, rfl, ⟨_, rfl⟩⟩,
    ⟨fullLoad_inv ident, rfl, ⟨_, rfl, rfl⟩⟩⟩

theorem test_witness_loadmap : (List.replicate 2304 (0xFFFF : Entry)).length = Dim.d48.entries ∧
    State.reset.seq = .idle ∧ State.reset.loaded.get .d48 = false := ⟨List.length_replicate, rfl, rfl⟩

theorem test_witness_quant : State.reset.seq ≠ .error ∧ (loadingAt 0).seq ≠ .error ∧
    (encodingAt 0 0).seq ≠ .error := by decide

theorem test_witness_quant_mask : (0x12345678 : Word) &&& 0xF8FCF800 = 0x173655FF &&& 0xF8FCF800 ∧
    (0x12345678 : Word) &&& 0xF0F0F0F0 = 0x1F3F5F7F &&& 0xF0F0F0F0 := by decide

theorem test_witness_start : ({ idle true with imgdim := 0x00300030 } : State).seq = .idle ∧
    ({ idle true with imgdim := 0x00300030 } : State).imgdim =
      BitVec.ofNat 32 (Dim.d48.width * 2 ^ 16 + Dim.d48.height) ∧
    ({ idle true with imgdim := 0x00300030 } : State).loaded.get .d48 = true := ⟨rfl, rfl, rfl⟩

/-- A wrong size for an icon and for the banner (rows N4, N5). -/
theorem test_witness_start_size : State.reset.seq = .idle ∧
    (0x00180018 : Word) ≠ BitVec.ofNat 32 (Dim.d48.width * 2 ^ 16 + Dim.d48.height) ∧
    (0x00800100 : Word) ≠ BitVec.ofNat 32 (Dim.d256.width * 2 ^ 16 + Dim.d256.height) := by decide

/-- PUSH at the first pixel and at the last but one, to the first and the last destination. -/
theorem test_witness_push :
    ((encodingAt 0 575).seq = .encoding ∧
      ((encodingAt 0 575).mapEntry (encodingAt 0 575).adim (encodingAt 0 575).idx.toNat).toNat <
        (encodingAt 0 575).adim.entries ∧ (encodingAt 0 575).idx.toNat + 1 < (encodingAt 0 575).adim.entries) ∧
    ((encodingAt 574 0).seq = .encoding ∧
      ((encodingAt 574 0).mapEntry (encodingAt 574 0).adim (encodingAt 574 0).idx.toNat).toNat <
        (encodingAt 574 0).adim.entries ∧ (encodingAt 574 0).idx.toNat + 1 < (encodingAt 574 0).adim.entries) := by
  decide

/-- PUSH of the last pixel. -/
theorem test_witness_last_push : (encodingAt 575 575).seq = .encoding ∧
    ((encodingAt 575 575).mapEntry (encodingAt 575 575).adim (encodingAt 575 575).idx.toNat).toNat <
      (encodingAt 575 575).adim.entries ∧
    (encodingAt 575 575).idx.toNat + 1 = (encodingAt 575 575).adim.entries := by decide

/-- PUSH of the least entry that is no destination. -/
theorem test_witness_push_out_of_range : (encodingAt 3 576).seq = .encoding ∧ (encodingAt 3 576).adim.entries ≤
    ((encodingAt 3 576).mapEntry (encodingAt 3 576).adim (encodingAt 3 576).idx.toNat).toNat := by decide

theorem test_witness_complete_encode : (List.replicate 576 (0xFFFFFFFF : Word)).length = Dim.d24.entries ∧
    (ready ident).seq = .idle ∧ (ready ident).loaded.get .d24 = true ∧ (ready ident).Bijective .d24 :=
  ⟨List.length_replicate, rfl, rfl, ident_bijective _ (ready_entry ident)⟩

/-- A table of zeros: the last index wins destination 0, and no entry names destination 1. -/
theorem test_witness_largest_index : (List.replicate 576 (0 : Word)).length = Dim.d24.entries ∧
    (ready fun _ => 0).seq = .idle ∧ (ready fun _ => 0).loaded.get .d24 = true ∧
    (∀ x, x < Dim.d24.entries → ((ready fun _ => 0).mapEntry .d24 x).toNat < Dim.d24.entries) ∧
    (∀ y, 575 < y → y < 576 → (ready fun _ => 0).mapEntry .d24 y ≠ (ready fun _ => 0).mapEntry .d24 575) ∧
    (∀ x, x < Dim.d24.entries → ((ready fun _ => 0).mapEntry .d24 x).toNat ≠ 1) :=
  ⟨List.length_replicate, rfl, rfl,
    fun x h => by rw [ready_entry _ x h]; decide, fun y h1 h2 => absurd h1 (by omega),
    fun x h => by rw [ready_entry _ x h]; decide⟩

theorem test_witness_memory_writers : exec .nop State.reset = .next State.reset ∧ Instr.nop ≠ .push ∧
    (∀ b, Instr.nop ≠ startOf b) ∧ ∀ v, Instr.nop ≠ .mapentry v :=
  ⟨rfl, by decide, fun b => by cases b <;> decide, fun _ h => (by cases h)⟩

theorem test_witness_valid_blob : Instr.quantRgb565 ≠ .push ∧ (∀ b, Instr.quantRgb565 ≠ startOf b) ∧
    (blob ident 1152).bvalid = true ∧ (blob ident 1152).seq ≠ .error ∧
    (∃ t, exec .quantRgb565 (blob ident 1152) = .next t ∧ t.seq ≠ .error) ∧
    transact Config.tpq1 (.read (windowOffset 1) .w16) (blob ident 1152) = .fault .busError :=
  ⟨by decide, fun b => by cases b <;> decide, rfl, by decide, ⟨_, rfl, by decide⟩, rfl⟩

theorem test_witness_whole_blob : (blob ident 1152).Inv ∧ (blob ident 1152).bvalid = true ∧
    (blob ident 1152).Bijective (blob ident 1152).adim :=
  ⟨blob_inv ident 1152 (Nat.le_refl _) ident_marks, rfl, ident_bijective _ (ready_entry ident)⟩

/-- The first and the last reserved register offset. -/
theorem test_witness_reserved_offsets : 0x24 ≤ (0x24 : Offset).toNat ∧ (0x24 : Offset).toNat % 4 = 0 ∧
    (0xFFFC : Offset).toNat < 0x10000 ∧ (0xFFFC : Offset).toNat % 4 = 0 := by decide

/-- Writes that are ignored: STATUS, the last reserved offset, and both ends of the window. -/
theorem test_witness_ignored_writes : (0x10 : Offset).toNat % 4 = 0 ∧ (0x10 : Offset) ≠ 0x00 ∧ (0x10 : Offset) ≠ 0x04 ∧
    (0x10 : Offset) ≠ 0x08 ∧ (0xFFFC : Offset).toNat % 4 = 0 ∧
    0x10000 ≤ (0x10000 : Offset).toNat ∧ (0x10000 : Offset).toNat % Width.w32.bytes = 0 ∧
    0x10000 ≤ (0x1FFFF : Offset).toNat ∧ (0x1FFFF : Offset).toNat % Width.w8.bytes = 0 := by decide

/-- Bus errors: at the last narrow and misaligned register offsets, at a wide access, and one that a session goes on past. -/
theorem test_witness_bus_errors : (0xFFFE : Offset).toNat < 0x10000 ∧
    transact Config.tpq1 (.read 0xFFFE .w16) State.reset = .fault .busError ∧
    transact Config.tpq1 (.write 0xFFFE .w32 0) State.reset = .fault .busError ∧
    transact Config.tpq1 (.read 0x10002 .w32) State.reset = .fault .busError ∧
    transact Config.tpq1 (.write 0x10000 .wider 0) State.reset = .fault .busError := ⟨by decide, rfl, rfl, rfl, rfl⟩

theorem test_witness_misaligned_window_write :
    0x10000 ≤ (0x1FFFF : Offset).toNat ∧ (0x1FFFF : Offset).toNat % Width.w16.bytes ≠ 0 := by decide

/-- Window writes at both ends of the window: misaligned, and aligned (the model's reading, log entries 4 and 5). -/
theorem test_witness_window_writes :
    0x10000 ≤ (0x10000 : Offset).toNat ∧ Width.w16 ≠ .wider ∧
    transact Config.tpq1 (.write 0x10001 .w16 0) State.reset = .fault .busError ∧
    transact Config.tpq1 (.write 0x1FFFF .w16 0) State.reset = .fault .busError ∧
    transact Config.tpq1 (.write 0x10000 .w16 0) State.reset = .next State.reset ∧
    transact Config.tpq1 (.write 0x1FFFF .w8 0) State.reset = .next State.reset := ⟨by decide, by decide, rfl, rfl, rfl, rfl⟩

/-- A read of the last bytes of a complete blob, of each width. -/
theorem test_witness_admitted_read : (blob ident 1152).Inv ∧ (blob ident 1152).bvalid = true ∧
    Width.w32 ≠ .wider ∧ (1148 : BitVec 16).toNat % Width.w32.bytes = 0 ∧
    (1148 : BitVec 16).toNat + Width.w32.bytes ≤ 2 * (blob ident 1152).adim.entries ∧
    (1151 : BitVec 16).toNat + Width.w8.bytes ≤ 2 * (blob ident 1152).adim.entries ∧
    ∀ k, k < Width.w32.bytes → (blob ident 1152).marked ((1148 : BitVec 16).toNat + k) = true := by
  refine ⟨blob_inv ident 1152 (Nat.le_refl _) ident_marks, rfl, by decide, by decide, by decide, by decide, fun k hk => ?_⟩
  change k < 4 at hk
  show (cellRead (fill 1152 _) (1148 + k)).isSome = true
  rw [fill_read, if_pos (by omega)]
  rfl

theorem test_witness_no_blob : Width.w16 ≠ .wider ∧ (0xFFFE : BitVec 16).toNat % Width.w16.bytes = 0 ∧
    State.reset.bvalid = false := by decide

theorem inError_inv : inError.Inv where
  outWf := rfl
  wrWf := rfl
  mapWf := fun b => by cases b <;> rfl
  outRange := fun _ _ h => by cases h
  mapRange := fun b _ _ h => by cases b <;> cases h
  markedWritten := fun _ h => by cases h
  markedInBlob := fun _ h => by cases h
  markedFromTable := fun _ => ⟨fun h => (by cases h), fun ⟨_, h, _⟩ => absurd h (Nat.not_lt_zero _)⟩
  lcntLe := Nat.zero_le _
  idxLe := Nat.zero_le _
  idxLoaded := fun h => absurd h (Nat.not_lt_zero _)
  loadingBank := fun h => by cases h
  loadedFull := fun b h => by cases b <;> cases h
  encodingOpen := fun h => by cases h
  blobComplete := fun h => by cases h
  errState := ⟨fun h => (by cases h), fun h => absurd rfl h⟩
  errClear := fun h => by cases h
  formatPaired := rfl
  verified := fun h => by cases h
  unverified := fun _ => ⟨rfl, rfl⟩

/-- States of the invariant in ERROR and in ENCODING. -/
theorem test_witness_no_blob_in_error : (inError.Inv ∧ inError.seq = .error) ∧
    (encodeOf ident 0 .encoding 0 false).Inv ∧ (encodeOf ident 0 .encoding 0 false).seq = .encoding :=
  ⟨⟨inError_inv, rfl⟩, begun_inv ident, rfl⟩

/-- A byte inside the blob that no PUSH wrote (program P6), the first byte past it, and a bijective table. -/
theorem test_witness_unwritten : (blob (fun _ => 0) 2).Inv ∧ (blob (fun _ => 0) 2).bvalid = true ∧
    (blob (fun _ => 0) 2).marked 2 = false ∧ 2 * (blob (fun _ => 0) 2).adim.entries ≤ (1152 : BitVec 16).toNat + 0 ∧
    (blob ident 1152).Inv ∧ (blob ident 1152).bvalid = true ∧ (blob ident 1152).Bijective (blob ident 1152).adim := by
  refine ⟨blob_inv _ 2 (by decide) zero_marks, rfl, ?_, by decide, blob_inv ident 1152 (Nat.le_refl _) ident_marks, rfl,
    ident_bijective _ (ready_entry ident)⟩
  show (cellRead (fill 2 _) 2).isSome = false
  rw [fill_read, if_neg (by decide)]
  rfl

theorem test_witness_reads : transact Config.tpq1 (.read 0x04 .w32) State.reset = .next (State.reset.setReply (some 0)) ∧
    transact Config.tpq1 (.read 0x10000 .w8) State.reset = .fault .blobNotReady := ⟨rfl, rfl⟩

theorem test_witness_host_faults : transact Config.tpq1 (.read 0x10000 .w8)
    (session Config.tpq1 [cmd 0x10000000] State.reset).2 = .fault .blobNotReady := rfl

/-- Each of the host's liberties, in a load and in ERROR. -/
theorem test_witness_liberties :
    (∃ t, transact Config.tpq1 (.read 0x18 .w32) (loadingAt 5) = .next t) ∧
    (∃ t, transact Config.tpq1 (.write 0x04 .w32 7) inError = .next t) ∧
    (∃ t, transact Config.tpq1 (.write 0x08 .w32 7) (encodingAt 1 0) = .next t) ∧
    (∃ t, transact Config.tpq1 (.write 0x00 .w32 (encode (quantOf .rgba4444))) (encodingAt 1 0) = .next t) ∧
    (∃ t, transact Config.tpq1 (.write 0x00 .w32 (encode .nop)) (loadingAt 5) = .next t) :=
  ⟨⟨_, rfl⟩, ⟨_, rfl⟩, ⟨_, rfl⟩, ⟨_, rfl⟩, ⟨_, rfl⟩⟩

theorem test_witness_waitvalid : (blob ident 1152).bvalid = true ∧ inError.seq = .error ∧
    State.reset.bvalid = false ∧ State.reset.seq ≠ .error := ⟨rfl, rfl, rfl, by decide⟩

/-- The register list's first and last row, and full lists for the two table expansions. -/
theorem test_witness_lines :
    (AsmLine.wr .cmd 7).assemble = some [.write 0x00 .w32 7] ∧ (AsmLine.rd .id).assemble = some [.read 0x20 .w32] ∧
    (AsmLine.rdWindow .w8 0xFFFF).assemble = some [.read 0x1FFFF .w8] ∧
    (List.replicate 576 (0 : Entry)).length = Dim.d24.entries ∧
    (List.replicate 32768 (0 : Word)).length = Dim.d256.entries :=
  ⟨rfl, rfl, rfl, List.length_replicate, List.length_replicate⟩

/-- R79's lines, with the letter case that log entry 16 chooses for operands. -/
theorem test_assemble_text :
    assembleText ("mapbegin D24 ; load".toList) = some [cmd 0x10000000] ∧
    assembleText ("WR pix, 0X1f".toList) = some [.write 0x04 .w32 0x1F] ∧
    assembleText ("START d256, rgb565".toList) = none := by decide

theorem test_witness_reports : ErrCode.dimensionError.code = 1 ∧ ErrCode.resourceError.code = 2 ∧
    ErrCode.illegalCommand.code = 3 ∧ ErrCode.sequenceError.code = 4 ∧ ErrCode.mapImmutable.code = 5 ∧
    ErrCode.destOutOfRange.code = 6 ∧ inError.seq = .error := by decide

/-- States of the invariant and steps from them: MAPEND of a full load, and START of the blob's dimension. -/
theorem test_witness_invariant :
    ((fullLoad ident).Inv ∧ ∃ t, step (fullLoad ident) = .next t ∧ t.seq = .idle) ∧
    ((blob ident 1152).Inv ∧ ∃ t, step (blob ident 1152) = .next t ∧ t.seq = .encoding) :=
  ⟨⟨fullLoad_inv ident, ⟨_, rfl, rfl⟩⟩, blob_inv ident 1152 (Nat.le_refl _) ident_marks, ⟨_, rfl, rfl⟩⟩

/-- Two instances at different bases, and an access to each. -/
theorem test_witness_platform :
    (∃ p, Platform.access 0x0 (.write .w32 0x10000000)
        [⟨0, ⟨true⟩, State.reset⟩, ⟨0x20000, ⟨false⟩, State.reset⟩] = some (.next p)) ∧
    (∃ p, Platform.access 0x3FFFC (.write .w32 7)
        [⟨0, ⟨true⟩, State.reset⟩, ⟨0x20000, ⟨false⟩, State.reset⟩] = some (.next p)) ∧
    ∀ q ∈ ([⟨0, ⟨true⟩, State.reset⟩, ⟨0x20000, ⟨false⟩, State.reset⟩] : Platform),
      q.offset 0x0 = none ∨ q.offset 0x3FFFC = none := by
  refine ⟨⟨_, rfl⟩, ⟨_, rfl⟩, ?_⟩
  intro q hq
  simp only [List.mem_cons, List.not_mem_nil, or_false] at hq
  rcases hq with rfl | rfl
  · exact .inr rfl
  · exact .inl rfl

/-- A reset of the last of two instances, one in ERROR; and a platform just started. -/
theorem test_witness_platform_reset :
    (Platform.resetAt 1 [⟨0, ⟨true⟩, inError⟩, ⟨0x20000, ⟨false⟩, inError⟩])[1]? = some ⟨0x20000, ⟨false⟩, State.reset⟩ ∧
    (Platform.resetAt 1 [⟨0, ⟨true⟩, inError⟩, ⟨0x20000, ⟨false⟩, inError⟩])[0]? = some ⟨0, ⟨true⟩, inError⟩ ∧
    (Platform.start [(0, ⟨true⟩), (0x20000, ⟨false⟩)])[1]? = some ⟨0x20000, ⟨false⟩, State.reset⟩ := ⟨rfl, rfl, rfl⟩

/-- A load left unfinished under the host's liberties, and an encode left unfinished in a state of the invariant. -/
theorem test_witness_unfinished :
    (loadingAt 5).unfinished ∧ (loadingAt 5).inbox = [] ∧
    (∃ t, serve Config.tpq1 [.read 0x10 .w32, .write 0x04 .w32 7, .write 0x08 .w32 7,
      .write 0x00 .w32 (encode (quantOf .rgb565)), .write 0x00 .w32 (encode .nop)] (loadingAt 5) = .next t) ∧
    (encodeOf ident 0 .encoding 0 false).unfinished ∧ (encodeOf ident 0 .encoding 0 false).Inv ∧
    (encodeOf ident 0 .encoding 0 false).seq = .encoding :=
  ⟨.inl rfl, rfl, ⟨_, rfl⟩, .inr rfl, begun_inv ident, rfl⟩

/-- R81 with R139: a MAPBEGIN after a complete encode leaves the blob valid, and the run is no success until MAPEND. -/
theorem test_unfinished_load_is_no_success : (blob ident 1152).succeeded ∧
    ∃ t, exec .mapbeginD48 (blob ident 1152) = .next t ∧ t.bvalid = true ∧ t.unfinished ∧ ¬ t.succeeded :=
  ⟨⟨rfl, rfl⟩, _, rfl, rfl, .inl rfl, fun h => by cases h.2⟩

end Sys2Proof.Tests
end

section
/-! The scope's statements (spec/00_scope.md R14, R16): what a bus error is, that a host's fault is no event for the rest
of its session, and that a valid blob of a bijective table is read whole. -/

namespace Sys2Proof.Machine

open Sys2Proof

/-! ### Bus errors (R50, R51, R53) -/

theorem inWindow_iff (a : Offset) : inWindow a = true ↔ 0x10000 ≤ a.toNat := by
  simp [inWindow]

/-- The three conditions of a legal access, as numbers. -/
theorem legalAccess_iff (a : Offset) (w : Width) : legalAccess a w = true ↔
    w ≠ .wider ∧ a.toNat % w.bytes = 0 ∧ (0x10000 ≤ a.toNat ∨ w = .w32) := by
  simp [legalAccess, inWindow_iff, and_assoc]

theorem legalAccess_eq_false_iff (a : Offset) (w : Width) : legalAccess a w = false ↔
    w = .wider ∨ a.toNat % w.bytes ≠ 0 ∨ (a.toNat < 0x10000 ∧ w ≠ .w32) := by
  rw [← Bool.not_eq_true, legalAccess_iff, not_and_or, not_and_or, not_or, not_not, Nat.not_le]

/-- The window begins at a multiple of every width, so its offsets and the blob's bytes are aligned together. -/
theorem windowByte_mod_bytes (a : Offset) (w : Width) (h : 0x10000 ≤ a.toNat) :
    (a.toNat - 0x10000) % w.bytes = a.toNat % w.bytes := by
  cases w <;> simp only [Width.bytes] <;> omega

/-- Every CMD write of at most 32 bits answers a next state: its errors are block errors (R112). -/
theorem writeCmd_answers_next (cfg : Config) (v : Word) (s : State) : ∃ t, writeCmd cfg v s = .next t := by
  by_cases he : s.seq = .error
  · exact ⟨s, (writeCmd_next cfg v s s).2 (.inl ⟨he, rfl⟩)⟩
  · cases hd : decode cfg.hasVerify v with
    | ok i => exact ⟨_, (writeCmd_next cfg v s _).2 (.inr (.inl ⟨he, i, hd, rfl⟩))⟩
    | error e => exact ⟨_, (writeCmd_next cfg v s _).2 (.inr (.inr ⟨he, e, hd, rfl⟩))⟩

theorem writeRegister_answers_next (cfg : Config) (a : Offset) (v : Word) (s : State) :
    ∃ t, writeRegister cfg a v s = .next t := by
  unfold writeRegister
  split
  · exact writeCmd_answers_next cfg v s
  · split
    · exact ⟨_, rfl⟩
    · split <;> exact ⟨_, rfl⟩

theorem hostRead_illegal (a : Offset) (w : Width) (s : State) (h : legalAccess a w = false) :
    hostRead a w s = .error .busError := if_pos h

theorem hostWrite_illegal (cfg : Config) (a : Offset) (w : Width) (v : Word) (s : State)
    (h : legalAccess a w = false) : hostWrite cfg a w v s = .fault .busError := if_pos h

/-- A legal write is taken or ignored; it is no fault (R54). -/
theorem hostWrite_legal_answers_next (cfg : Config) (a : Offset) (w : Width) (v : Word) (s : State)
    (h : legalAccess a w = true) : ∃ t, hostWrite cfg a w v s = .next t := by
  rw [hostWrite, h, if_neg (by decide)]
  split
  · exact ⟨s, rfl⟩
  · exact writeRegister_answers_next cfg a v s

/-- The faults of the window are others than the bus error, so a read is a bus error only by its width and offset. -/
theorem hostRead_busError_iff (a : Offset) (w : Width) (s : State) :
    hostRead a w s = .error .busError ↔ legalAccess a w = false := by
  refine ⟨fun h => ?_, hostRead_illegal a w s⟩
  rcases hostRead_error a w s _ h with ⟨hl, -⟩ | ⟨-, -, -, hf⟩ | ⟨-, -, -, hb⟩
  · exact hl
  · cases hf
  · obtain ⟨p, hf, -⟩ := windowBytes_error s _ _ _ hb
    cases hf

theorem transact_read_fault_iff (cfg : Config) (a : Offset) (w : Width) (s : State) (f : Fault) :
    transact cfg (.read a w) s = .fault f ↔ hostRead a w s = .error f := by
  unfold transact
  cases hr : hostRead a w s <;> simp [hr]

theorem transact_read_busError_iff (cfg : Config) (a : Offset) (w : Width) (s : State) :
    transact cfg (.read a w) s = .fault .busError ↔ legalAccess a w = false :=
  (transact_read_fault_iff cfg a w s _).trans (hostRead_busError_iff a w s)

theorem transact_write_busError_iff (cfg : Config) (a : Offset) (w : Width) (v : Word) (s : State) :
    transact cfg (.write a w v) s = .fault .busError ↔ legalAccess a w = false := by
  refine ⟨fun h => ?_, hostWrite_illegal cfg a w v _⟩
  by_contra hl
  obtain ⟨t, ht⟩ := hostWrite_legal_answers_next cfg a w v (s.setReply none) ((Bool.not_eq_false _).mp hl)
  cases ht.symm.trans h

/-! ### The host's session (R14, R128; log entry 3) -/

/-- The host goes on from the state before a fault. -/
theorem session_cons_fault (c : Config) (x : HostTxn) (ys : List HostTxn) (s : State) (f : Fault)
    (h : transact c x s = .fault f) :
    session c (x :: ys) s = (.fault f :: (session c ys s).1, (session c ys s).2) := by
  rw [session, h]

/-- A session of two lists in a row is the second from where the first ended. -/
theorem session_append (c : Config) (xs ys : List HostTxn) (s : State) :
    session c (xs ++ ys) s = ((session c xs s).1 ++ (session c ys (session c xs s).2).1,
      (session c ys (session c xs s).2).2) := by
  induction xs generalizing s with
  | nil => rfl
  | cons x xs ih =>
    simp only [List.cons_append, session]
    cases transact c x s <;> simp only [ih, List.cons_append]

/-! ### The whole blob (R16, R100, R136) -/

theorem admittedByte_of_marked (s : State) (o : Nat) (ho : o < s.adim.blobBytes) (hm : s.marked o = true) :
    s.admittedByte o = s.outByte o := if_pos ⟨ho, hm⟩

/-- A complete encode through a bijective table has marked every byte of the blob: the pixel that a byte belongs to is the
destination of some source index, and all were pushed. -/
theorem marked_of_bijective (s : State) (hinv : s.Inv) (hb : s.bvalid = true) (hbij : s.Bijective s.adim) (o : Nat)
    (ho : o < 2 * s.adim.entries) : s.marked o = true := by
  obtain ⟨x, hx, hdest, -⟩ := hbij (o / 2) (by omega)
  have hidx : s.idx.toNat = s.adim.entries := (hinv.blobComplete hb).2
  exact (hinv.markedFromTable o).2 ⟨x, hidx ▸ hx, hdest⟩

/-- A read of which every byte is admitted answers. -/
theorem windowBytes_answers (s : State) (o n : Nat) (h : ∀ p, o ≤ p → p < o + n → ∃ b, s.admittedByte p = some b) :
    ∃ bs, s.windowBytes o n = .ok bs := by
  cases hr : s.windowBytes o n with
  | ok bs => exact ⟨bs, rfl⟩
  | error f =>
    obtain ⟨p, -, hlo, hhi, hnone⟩ := windowBytes_error s n o f hr
    obtain ⟨b, hsome⟩ := h p hlo hhi
    cases hnone.symm.trans hsome

/-- The host's output is the window's bytes, once BVALID is set and no error has come (R136, R138). -/
theorem output_of_windowBytes (s : State) (bs : List Byte) (he : s.seq ≠ .error) (hb : s.bvalid = true)
    (h : s.windowBytes 0 s.adim.blobBytes = .ok bs) : s.output = some bs := by
  simp [State.output, he, hb, h]

/-- Settles O49: the session of the transactions before, then the fault, which leaves the state as it is. -/
theorem hostFaultsDoNotAffectLaterAccesses : Obligations.HostFaultsDoNotAffectLaterAccesses := by
  intro c xs x ys s f hf
  rw [session_append, session_cons_fault c x ys _ f hf]

/-- Settles O43: reads and writes are bus errors exactly where `legalAccess` fails, which each clause writes out for its
part of the offsets. -/
theorem busErrorsAreExactlyTheListedAccesses : Obligations.BusErrorsAreExactlyTheListedAccesses := by
  intro c s
  refine ⟨fun a w => ?_, fun a w v ha => ?_, fun a w v ha hw => ?_, fun x hx => session_cons_fault c x [] s _ hx⟩
  · rw [transact_read_busError_iff, legalAccess_eq_false_iff]
    cases w <;> simp [Width.bytes] <;> omega
  · rw [transact_write_busError_iff, legalAccess_eq_false_iff]
    cases w <;> simp [Width.bytes] at ha ⊢ <;> omega
  · rw [transact_write_busError_iff, legalAccess_eq_false_iff, windowByte_mod_bytes a w ha]
    simp [hw, Nat.not_lt.mpr ha]

/-- Settles O38: every byte of the blob is marked, and a marked byte has been written, so the read of all of them
answers with OUT's bytes. -/
theorem aBijectiveBlobIsReadWhole : Obligations.ABijectiveBlobIsReadWhole := by
  intro s hinv hb hbij
  have hadm : ∀ p, p < s.adim.blobBytes → s.admittedByte p = s.outByte p := fun p hp =>
    admittedByte_of_marked s p hp (marked_of_bijective s hinv hb hbij p hp)
  have hreadable : ∀ p, 0 ≤ p → p < 0 + s.adim.blobBytes → ∃ b, s.admittedByte p = some b := by
    intro p _ hp
    rw [Nat.zero_add] at hp
    rw [hadm p hp]
    exact hinv.markedWritten p (marked_of_bijective s hinv hb hbij p hp)
  obtain ⟨bs, hbs⟩ := windowBytes_answers s 0 _ hreadable
  obtain ⟨hlen, hget⟩ := windowBytes_ok s _ 0 bs hbs
  have hseq : s.seq ≠ .error := by
    rcases (hinv.blobComplete hb).1 with h | h <;> rw [h] <;> decide
  refine ⟨bs, output_of_windowBytes s bs hseq hb hbs, hlen, fun k hk => ?_⟩
  rw [← hadm k (hlen ▸ hk), ← hget k hk, Nat.zero_add]

end Sys2Proof.Machine
end

section
/-! The rules about the memories that the invariant of the machine rests on (spec/10_state.md R22, R23, R26): what a
PUSH marks, which tables a load leaves alone, and when MAPVERIFY's check succeeds. -/

namespace Sys2Proof.Machine

open Sys2Proof

/-! ### Tables (R22, R84) -/

theorem mapEntry_congr {s t : State} {b : Dim} (h : t.map.get b = s.map.get b) (i : Nat) :
    t.mapEntry b i = s.mapEntry b i := by
  rw [State.mapEntry, State.mapEntry, h]

theorem bijective_congr {s t : State} {b : Dim} (h : t.map.get b = s.map.get b) : t.Bijective b ↔ s.Bijective b := by
  simp only [State.Bijective, mapEntry_congr h]

theorem mem_table (s : State) (b : Dim) (v : Nat) : v ∈ s.table b ↔ ∃ x, x < b.entries ∧ (s.mapEntry b x).toNat = v := by
  simp [State.table]

theorem table_nodup (s : State) (b : Dim) : (s.table b).Nodup ↔
    ∀ x < b.entries, ∀ y < b.entries, (s.mapEntry b x).toNat = (s.mapEntry b y).toNat → x = y := by
  rw [State.table, List.nodup_map_iff_inj_on List.nodup_range]
  simp only [List.mem_range]

/-- Among N numbers below N, each once, every number below N stands: R84's check by counting is R86's bijection. -/
theorem tableIsBijection_iff (s : State) (b : Dim) : s.tableIsBijection b = true ↔ s.Bijective b := by
  have hlen : (s.table b).length = b.entries := by simp [State.table]
  have hcheck : s.tableIsBijection b = true ↔ (∀ v ∈ s.table b, v < b.entries) ∧ (s.table b).Nodup := by
    simp [State.tableIsBijection, distinct_iff_nodup]
  rw [hcheck]
  constructor
  · rintro ⟨hrange, hnodup⟩ d hd
    have hsub : List.range b.entries ⊆ s.table b := by
      refine (List.Subperm.perm_of_length_le ?_ ?_).symm.subset
      · exact List.subperm_of_subset hnodup fun v hv => List.mem_range.2 (hrange v hv)
      · rw [List.length_range, hlen]
    obtain ⟨x, hx, hxd⟩ := (mem_table s b d).1 (hsub (List.mem_range.2 hd))
    exact ⟨x, hx, hxd, fun y hy hyd => (table_nodup s b).1 hnodup y hy x hx (hyd.trans hxd.symm)⟩
  · intro h
    have hsub : List.range b.entries ⊆ s.table b := by
      intro d hd
      obtain ⟨x, hx, hxd, -⟩ := h d (List.mem_range.1 hd)
      exact (mem_table s b d).2 ⟨x, hx, hxd⟩
    have hperm : (List.range b.entries).Perm (s.table b) :=
      (List.subperm_of_subset List.nodup_range hsub).perm_of_length_le (by rw [List.length_range, hlen])
    exact ⟨fun v hv => List.mem_range.1 (hperm.symm.subset hv), hperm.nodup_iff.1 List.nodup_range⟩

/-! ### One pixel (R26, R98, R99) -/

theorem outByte_putPixel (s : State) (d : Entry) (q : QPixel) (o : Nat) : (s.putPixel d q).outByte o =
    if o = destByte1 d then some (qByte1 q) else if o = destByte0 d then some (qByte0 q) else s.outByte o := by
  simp only [State.outByte, State.putPixel_out, cellRead_cellWrite]

/-- A PUSH marks the two bytes of its destination pixel and no other. -/
theorem marked_putPixel (s : State) (d : Entry) (q : QPixel) (o : Nat) :
    (s.putPixel d q).marked o = true ↔ o / 2 = d.toNat ∨ s.marked o = true := by
  have hpixel : o / 2 = d.toNat ↔ o = destByte1 d ∨ o = destByte0 d := by
    unfold destByte0 destByte1
    omega
  rw [hpixel, State.marked, State.putPixel_wr, cellRead_cellWrite, cellRead_cellWrite, State.marked]
  by_cases h1 : o = destByte1 d <;> by_cases h0 : o = destByte0 d <;> simp [h1, h0]

/-- A byte of a written pixel holds a byte; every other holds what it held. -/
theorem outByte_putPixel_written (s : State) (d : Entry) (q : QPixel) (o : Nat)
    (h : o / 2 = d.toNat ∨ ∃ v, s.outByte o = some v) : ∃ v, (s.putPixel d q).outByte o = some v := by
  rw [outByte_putPixel]
  split
  · exact ⟨_, rfl⟩
  · split
    · exact ⟨_, rfl⟩
    · refine h.resolve_left fun ho => ?_
      simp only [destByte0, destByte1] at *
      omega

end Sys2Proof.Machine
end

section
/-! The invariant (spec/10_state.md R19 to R29): each update of the state keeps it, so every step does. -/

namespace Sys2Proof.Machine

open Sys2Proof

variable {s : State}

/-! ### Updates of what the invariant does not speak of -/

theorem State.Inv.setReply (h : s.Inv) (r : Option Word) : (s.setReply r).Inv := { h with }

theorem State.Inv.setInbox (h : s.Inv) (ts : List HostTxn) : (s.setInbox ts).Inv := { h with }

theorem State.Inv.setPix (h : s.Inv) (v : Word) : (s.setPix v).Inv := { h with }

theorem State.Inv.setImgdim (h : s.Inv) (v : Word) : (s.setImgdim v).Inv := { h with }

theorem State.Inv.setQout (h : s.Inv) (q : QPixel) : (s.setQout q).Inv := { h with }

/-! ### Reset and error entry -/

/-- Settles O56: at reset every memory is empty, every count 0, every LOADED bit and BVALID clear. -/
theorem resetStateMeetsTheInvariant : Obligations.ResetStateMeetsTheInvariant where
  outWf := rfl
  wrWf := rfl
  mapWf := reset_memory_wf.2.2
  outRange := fun _ _ h => by cases h
  mapRange := fun b _ _ h => by cases b <;> cases h
  markedWritten := fun _ h => by cases h
  markedInBlob := fun _ h => by cases h
  markedFromTable := fun _ => ⟨fun h => (by cases h), fun ⟨_, hx, _⟩ => absurd hx (Nat.not_lt_zero _)⟩
  lcntLe := Nat.zero_le _
  idxLe := Nat.zero_le _
  idxLoaded := fun h => absurd h (Nat.not_lt_zero _)
  loadingBank := fun h => by cases h
  loadedFull := fun b h => by cases b <;> cases h
  encodingOpen := fun h => by cases h
  blobComplete := fun h => by cases h
  errState := ⟨fun _ h => (by cases h), fun _ => rfl⟩
  errClear := fun _ => ⟨rfl, rfl⟩
  formatPaired := rfl
  verified := fun h => by cases h
  unverified := fun _ => ⟨rfl, rfl⟩

theorem applyReset_inv (s : State) : s.applyReset.Inv :=
  State.Inv.setInbox resetStateMeetsTheInvariant s.inbox

theorem State.Inv.raiseError (h : s.Inv) (c : ErrCode) (n : BitVec 4) (v : Word) (hc : c ≠ .none) :
    (s.raiseError c n v).Inv :=
  { h with
    loadingBank := fun hq => by cases hq
    encodingOpen := fun hq => by cases hq
    blobComplete := fun hv => by cases hv
    errState := ⟨fun he => absurd he hc, fun hq => absurd rfl hq⟩
    errClear := fun he => absurd he hc }

/-! ### Loading (R81 to R84) -/

/-- Outside ERROR there is no error record. -/
theorem State.Inv.err_none (h : s.Inv) (hs : s.seq ≠ .error) : s.err = .none := h.errState.2 hs

theorem State.Inv.beginLoad (h : s.Inv) (b : Dim) (hs : s.seq = .idle) (hl : s.loaded.get b = false) :
    (s.beginLoad b).Inv :=
  { h with
    lcntLe := Nat.zero_le _
    loadingBank := fun _ => ⟨hl, fun _ hi => absurd hi (Nat.not_lt_zero _)⟩
    encodingOpen := fun hq => by cases hq
    blobComplete := fun hv => ⟨.inr rfl, (h.blobComplete hv).2⟩
    errState := ⟨fun _ hq => (by cases hq), fun _ => h.err_none (by rw [hs]; decide)⟩ }

/-- A MAPENTRY changes no loaded table: the bank being loaded is not loaded (R23). -/
theorem State.Inv.appendEntry_map_loaded (h : s.Inv) (v : Entry) (hs : s.seq = .loading) {b : Dim}
    (hb : s.loaded.get b = true) : (s.appendEntry v).map.get b = s.map.get b := by
  have hne : b ≠ s.lbank := by
    rintro rfl
    cases hb.symm.trans (h.loadingBank hs).1
  rw [State.appendEntry_map, Banks.get_set_other _ _ hne]

/-- The bank being loaded, entry by entry. -/
theorem cellRead_appendEntry (s : State) (v : Entry) (b : Dim) (i : Nat) :
    cellRead ((s.appendEntry v).map.get b) i =
      if b = s.lbank ∧ i = s.lcnt.toNat then some v else cellRead (s.map.get b) i := by
  by_cases hb : b = s.lbank
  · subst hb
    simp [cellRead_cellWrite]
  · simp [hb]

theorem State.Inv.appendEntry (h : s.Inv) (v : Entry) (hs : s.seq = .loading) (hl : s.lcnt.toNat ≠ s.lbank.entries) :
    (s.appendEntry v).Inv :=
  have hlt : s.lcnt.toNat < s.lbank.entries := Nat.lt_of_le_of_ne h.lcntLe hl
  have hcnt : (s.appendEntry v).lcnt.toNat = s.lcnt.toNat + 1 := count_up _ _ hlt
  { h with
    mapWf := fun b => by
      by_cases hb : b = s.lbank
      · subst hb
        simpa using cellWrite_wf _ _ _ (h.mapWf _)
      · simpa [hb] using h.mapWf b
    mapRange := fun b i w hw => by
      rw [cellRead_appendEntry] at hw
      split at hw
      · next hc => exact hc.1 ▸ hc.2 ▸ hlt
      · exact h.mapRange b i w hw
    markedFromTable := fun o => by
      refine (h.markedFromTable o).trans (exists_congr fun x => and_congr_right fun hx => ?_)
      have hloaded := h.idxLoaded (Nat.zero_lt_of_lt hx)
      rw [State.appendEntry_adim, mapEntry_congr (h.appendEntry_map_loaded v hs hloaded)]
    lcntLe := by rw [hcnt]; exact hlt
    loadingBank := fun _ => ⟨(h.loadingBank hs).1, fun i hi => by
      rw [State.appendEntry_lbank, cellRead_appendEntry]
      split
      · exact ⟨v, rfl⟩
      · next hc => exact (h.loadingBank hs).2 i (by rw [hcnt] at hi; have := mt (And.intro rfl) hc; omega)⟩
    loadedFull := fun b hb i hi => by
      rw [h.appendEntry_map_loaded v hs hb]
      exact h.loadedFull b hb i hi
    verified := fun hv => by
      obtain ⟨hloaded, hok⟩ := h.verified hv
      exact ⟨hloaded, hok.trans (bijective_congr (h.appendEntry_map_loaded v hs hloaded)).symm⟩ }

/-- A MAPEND sets one LOADED bit and clears none (R23). -/
theorem endLoad_loaded_get (s : State) (b : Dim) :
    s.endLoad.loaded.get b = true ↔ b = s.lbank ∨ s.loaded.get b = true := by
  by_cases hb : b = s.lbank
  · subst hb
    simp
  · simp [hb]

theorem State.Inv.endLoad (h : s.Inv) (hs : s.seq = .loading) (hl : s.lcnt.toNat = s.lbank.entries) :
    s.endLoad.Inv :=
  have hmono : ∀ {b : Dim}, s.loaded.get b = true → s.endLoad.loaded.get b = true := fun hb =>
    (endLoad_loaded_get s _).2 (.inr hb)
  { h with
    idxLoaded := fun hx => hmono (h.idxLoaded hx)
    loadingBank := fun hq => by cases hq
    loadedFull := fun b hb i hi => by
      rcases (endLoad_loaded_get s b).1 hb with rfl | hb
      · exact (h.loadingBank hs).2 i (hl ▸ hi)
      · exact h.loadedFull b hb i hi
    encodingOpen := fun hq => by cases hq
    blobComplete := fun hv => ⟨.inl rfl, (h.blobComplete hv).2⟩
    errState := ⟨fun _ hq => (by cases hq), fun _ => h.err_none (by rw [hs]; decide)⟩
    verified := fun hv => ⟨hmono (h.verified hv).1, (h.verified hv).2⟩ }

theorem State.Inv.recordVerify (h : s.Inv) (b : Dim) (hl : s.loaded.get b = true) :
    (s.recordVerify b (s.tableIsBijection b)).Inv :=
  { h with
    verified := fun _ => ⟨hl, tableIsBijection_iff s b⟩
    unverified := fun hv => by cases hv }

/-! ### Encoding (R97 to R100) -/

theorem State.Inv.beginEncode (h : s.Inv) (b : Dim) (hs : s.seq = .idle) (hl : s.loaded.get b = true) :
    (s.beginEncode b b.format).Inv :=
  { h with
    wrWf := rfl
    markedWritten := fun _ hm => by cases hm
    markedInBlob := fun _ hm => by cases hm
    markedFromTable := fun _ => ⟨fun hm => (by cases hm), fun ⟨_, hx, _⟩ => absurd hx (Nat.not_lt_zero _)⟩
    idxLe := Nat.zero_le _
    idxLoaded := fun _ => hl
    loadingBank := fun hq => by cases hq
    encodingOpen := fun _ => ⟨entries_pos b, hl⟩
    blobComplete := fun hv => by cases hv
    errState := ⟨fun _ hq => (by cases hq), fun _ => h.err_none (by rw [hs]; decide)⟩
    formatPaired := rfl }

/-- The marks are the two bytes of each entry pushed so far, and a PUSH adds the next entry's. -/
theorem State.Inv.putPixel_markedFromTable (h : s.Inv) (q : QPixel) (o : Nat) :
    (s.putPixel s.nextDest q).marked o = true ↔
      ∃ x, x < s.idx.toNat + 1 ∧ (s.mapEntry s.adim x).toNat = o / 2 := by
  rw [marked_putPixel, h.markedFromTable]
  constructor
  · rintro (hd | ⟨x, hx, hxo⟩)
    · exact ⟨s.idx.toNat, Nat.lt_succ_self _, hd.symm⟩
    · exact ⟨x, Nat.lt_succ_of_lt hx, hxo⟩
  · rintro ⟨x, hx, hxo⟩
    rcases Nat.lt_succ_iff_lt_or_eq.1 hx with hx | rfl
    · exact .inr ⟨x, hx, hxo⟩
    · exact .inl hxo.symm

/-- A pixel in range keeps the invariant, with what STATE and BVALID are after it: an encode with a pixel to come, or a
complete blob (R98, R100). -/
theorem State.Inv.putPixel_with (h : s.Inv) (q : QPixel) (hs : s.seq = .encoding)
    (hd : s.nextDest.toNat < s.adim.entries) (r : Seq) (v : Bool)
    (hr : (r = .encoding ∧ v = false ∧ s.idx.toNat + 1 ≠ s.adim.entries) ∨
      (r = .idle ∧ v = true ∧ s.idx.toNat + 1 = s.adim.entries)) :
    State.Inv { s.putPixel s.nextDest q with seq := r, bvalid := v } :=
  have hopen := h.encodingOpen hs
  have hidx : (s.putPixel s.nextDest q).idx.toNat = s.idx.toNat + 1 := count_up _ _ hopen.1
  have hblob : ∀ o, o / 2 = s.nextDest.toNat → o < s.adim.blobBytes := fun o ho => by
    unfold Dim.blobBytes
    omega
  have hnone : s.err = .none := h.err_none (by rw [hs]; decide)
  { h with
    outWf := cellWrite_wf _ _ _ (cellWrite_wf _ _ _ h.outWf)
    wrWf := cellWrite_wf _ _ _ (cellWrite_wf _ _ _ h.wrWf)
    outRange := fun o w hw => by
      have hN := entries_le s.adim
      change (s.putPixel s.nextDest q).outByte o = some w at hw
      rw [outByte_putPixel, destByte0, destByte1] at hw
      split at hw
      · omega
      · split at hw
        · omega
        · exact h.outRange o w hw
    markedWritten := fun o hm =>
      outByte_putPixel_written s _ q o (((marked_putPixel s _ q o).1 hm).imp_right (h.markedWritten o))
    markedInBlob := fun o hm => ((marked_putPixel s _ q o).1 hm).elim (hblob o) (h.markedInBlob o)
    markedFromTable := fun o => by
      change _ ↔ ∃ x, x < (s.putPixel s.nextDest q).idx.toNat ∧ _
      rw [hidx]
      exact h.putPixel_markedFromTable q o
    idxLe := le_of_eq_of_le hidx hopen.1
    idxLoaded := fun _ => hopen.2
    loadingBank := fun hq => by
      rcases hr with ⟨rfl, -⟩ | ⟨rfl, -⟩ <;> cases hq
    encodingOpen := fun hq => by
      rcases hr with ⟨-, -, hx⟩ | ⟨rfl, -⟩
      · exact ⟨lt_of_eq_of_lt hidx (Nat.lt_of_le_of_ne hopen.1 hx), hopen.2⟩
      · cases hq
    blobComplete := fun hv => by
      rcases hr with ⟨-, rfl, -⟩ | ⟨rfl, -, hx⟩
      · cases hv
      · exact ⟨.inl rfl, hidx.trans hx⟩
    errState := ⟨fun _ hq => (by rcases hr with ⟨rfl, -⟩ | ⟨rfl, -⟩ <;> cases hq), fun _ => hnone⟩ }

/-- No blob is valid while an encode is under way (R27). -/
theorem State.Inv.bvalid_encoding (h : s.Inv) (hs : s.seq = .encoding) : s.bvalid = false := by
  rw [← Bool.not_eq_true]
  intro hv
  rcases (h.blobComplete hv).1 with hq | hq <;> cases hs.symm.trans hq

theorem State.Inv.putPixel (h : s.Inv) (q : QPixel) (hs : s.seq = .encoding)
    (hd : s.nextDest.toNat < s.adim.entries) (hx : s.idx.toNat + 1 ≠ s.adim.entries) :
    (s.putPixel s.nextDest q).Inv := by
  have hkeep : s.putPixel s.nextDest q = { s.putPixel s.nextDest q with seq := .encoding, bvalid := false } := by
    rw [← hs, ← h.bvalid_encoding hs]
    rfl
  rw [hkeep]
  exact h.putPixel_with q hs hd _ _ (.inl ⟨rfl, rfl, hx⟩)

theorem State.Inv.finishEncode_putPixel (h : s.Inv) (q : QPixel) (hs : s.seq = .encoding)
    (hd : s.nextDest.toNat < s.adim.entries) (hx : s.idx.toNat + 1 = s.adim.entries) :
    (s.putPixel s.nextDest q).finishEncode.Inv :=
  h.putPixel_with q hs hd _ _ (.inr ⟨rfl, rfl, hx⟩)

/-! ### Every step -/

/-- Every command keeps the invariant. -/
theorem State.Inv.of_effectOf (h : s.Inv) {i : Instr} {t : State} (he : EffectOf s i t) : t.Inv := by
  cases he with
  | nop => exact h
  | raise _ c n v hc => exact h.raiseError c n v hc
  | beginLoad _ b _ hs hl => exact h.beginLoad b hs hl
  | appendEntry v hs hl => exact h.appendEntry v hs hl
  | endLoad hs hl => exact h.endLoad hs hl
  | recordVerify _ b _ _ hl => exact h.recordVerify b hl
  | setQout => exact h.setQout _
  | beginEncode _ b _ hs _ hl => exact h.beginEncode b hs hl
  | lastPixel hs hd hx => exact h.finishEncode_putPixel _ hs hd hx
  | pixel hs hd hx => exact h.putPixel _ hs hd hx

/-- Every transaction that answers next keeps the invariant. -/
theorem State.Inv.transact (h : s.Inv) (cfg : Config) (x : HostTxn) (t : State)
    (ht : transact cfg x s = .next t) : t.Inv := by
  cases transact_cases cfg x s t ht with
  | read => exact h.setReply _
  | ignored => exact h.setReply _
  | pix v => exact (h.setReply _).setPix v
  | imgdim v => exact (h.setReply _).setImgdim v
  | command _ i => exact (h.setReply _).of_effectOf (effect_cases i _)
  | illegal => exact (h.setReply _).raiseError _ _ _ (by decide)
  | reset => exact applyReset_inv s

theorem State.Inv.serveNext (h : s.Inv) (cfg : Config) (t : State) (ht : serveNext cfg s = .next t) : t.Inv := by
  unfold Machine.serveNext at ht
  split at ht
  · cases ht
    exact h
  · exact (h.setInbox _).transact cfg _ t ht

/-- Settles O57: a step serves one transaction of the list, and each update that a transaction can make keeps the
invariant; `step` is the case of the default configuration. -/
theorem everyStepKeepsTheInvariant : Obligations.EveryStepKeepsTheInvariant :=
  ⟨fun _ t h ht => h.serveNext Config.tpq1 t ht, fun c _ t h ht => h.serveNext c t ht⟩

end Sys2Proof.Machine
end

section
/-! The command words (spec/30_encoding.md R68 to R76): what decodes is its command's word, and the word of a command
that exists decodes to it. -/

namespace Sys2Proof

/-- A check of the decode that a legal word has passed. -/
theorem of_ite_error {p : Prop} [Decidable p] {e : IllegalCause} {r : Except IllegalCause Instr} {i : Instr}
    (h : (if p then .error e else r) = .ok i) : ¬ p ∧ r = .ok i := by
  split at h
  · cases h
  next hp => exact ⟨hp, h⟩

/-- What a word must be to pass the checks that stand before the table of R74. -/
theorem decode_ok_checks {hv : Bool} {c : Word} {i : Instr} (h : decode hv c = .ok i) :
    Word.op c < 8#4 ∧ Word.rz c = 0 ∧ decodeOp c = .ok i := by
  unfold decode at h
  obtain ⟨hop, h⟩ := of_ite_error h
  obtain ⟨-, h⟩ := of_ite_error h
  obtain ⟨-, h⟩ := of_ite_error h
  obtain ⟨hrz, h⟩ := of_ite_error h
  exact ⟨BitVec.not_le.1 hop, not_not.1 hrz, h⟩

theorem code_of_ofCode {x : BitVec 2} {b : Dim} (h : Dim.ofCode x = some b) : x = b.code := by
  unfold Dim.ofCode at h
  split at h
  · cases h; assumption
  · split at h
    · cases h; assumption
    · split at h
      · cases h; assumption
      · cases h

theorem decodeDim_ok {c : Word} {i0 i1 i2 i : Instr} (h : decodeDim c i0 i1 i2 = .ok i) :
    (Word.dim c = Dim.d24.code ∧ i = i0) ∨ (Word.dim c = Dim.d48.code ∧ i = i1) ∨
      (Word.dim c = Dim.d256.code ∧ i = i2) := by
  unfold decodeDim at h
  split at h
  · next hd => cases h; exact .inl ⟨code_of_ofCode hd, rfl⟩
  · next hd => cases h; exact .inr (.inl ⟨code_of_ofCode hd, rfl⟩)
  · next hd => cases h; exact .inr (.inr ⟨code_of_ofCode hd, rfl⟩)
  · cases h

/-- The opcodes that are not reserved (R76). -/
theorem op_cases : ∀ {op : BitVec 4}, op < 8#4 →
    op = 0 ∨ op = 1 ∨ op = 2 ∨ op = 3 ∨ op = 4 ∨ op = 5 ∨ op = 6 ∨ op = 7 := by decide

theorem bitVec1_cases : ∀ x : BitVec 1, x = 0 ∨ x = 1 := by decide

/-- A row of R74's table whose command uses no field. -/
theorem fields_of_row {c : Word} {i j : Instr}
    (h : (if Word.dim c ≠ 0 ∨ Word.fmt c ≠ 0 ∨ Word.imm c ≠ 0 then .error .reservedField else .ok j) =
      (.ok i : Except IllegalCause Instr)) : i = j ∧ Word.dim c = 0 ∧ Word.fmt c = 0 ∧ Word.imm c = 0 := by
  obtain ⟨hz, h⟩ := of_ite_error h
  cases h
  exact ⟨rfl, by simpa using hz⟩

/-- A row of R74's table whose commands use DIM alone. -/
theorem fields_of_dimRow {c : Word} {i i0 i1 i2 : Instr}
    (h : (if Word.fmt c ≠ 0 ∨ Word.imm c ≠ 0 then .error .reservedField else decodeDim c i0 i1 i2) = .ok i) :
    (Word.fmt c = 0 ∧ Word.imm c = 0) ∧ ((Word.dim c = Dim.d24.code ∧ i = i0) ∨
      (Word.dim c = Dim.d48.code ∧ i = i1) ∨ (Word.dim c = Dim.d256.code ∧ i = i2)) := by
  obtain ⟨hz, h⟩ := of_ite_error h
  exact ⟨by simpa using hz, decodeDim_ok h⟩

/-- A word of R74's table has the fields of the command it names: a case per opcode. -/
theorem wordOf_of_decodeOp {c : Word} {i : Instr} (hop : Word.op c < 8#4) (h : decodeOp c = .ok i) :
    wordOf (Word.op c) (Word.dim c) (Word.fmt c) (Word.imm c) = encode i := by
  rcases op_cases hop with ho | ho | ho | ho | ho | ho | ho | ho <;>
    simp only [decodeOp, ho, BitVec.reduceEq, if_true, if_false] at h <;> rw [ho]
  · obtain ⟨rfl, hd, hf, hm⟩ := fields_of_row h
    rw [hd, hf, hm, encode]
  · obtain ⟨⟨hf, hm⟩, ⟨hd, rfl⟩ | ⟨hd, rfl⟩ | ⟨hd, rfl⟩⟩ := fields_of_dimRow h <;> rw [hd, hf, hm, encode]
  · obtain ⟨hz, h⟩ := of_ite_error h
    cases h
    obtain ⟨hd, hf⟩ : Word.dim c = 0 ∧ Word.fmt c = 0 := by simpa using hz
    rw [hd, hf, encode]
  · obtain ⟨rfl, hd, hf, hm⟩ := fields_of_row h
    rw [hd, hf, hm, encode]
  · obtain ⟨⟨hf, hm⟩, ⟨hd, rfl⟩ | ⟨hd, rfl⟩ | ⟨hd, rfl⟩⟩ := fields_of_dimRow h <;> rw [hd, hf, hm, encode]
  · obtain ⟨hz, h⟩ := of_ite_error h
    obtain ⟨hd, hm⟩ : Word.dim c = 0 ∧ Word.imm c = 0 := by simpa using hz
    split at h
    next hf => cases h; rw [hd, hf, hm]; rfl
    next hf => cases h; rw [hd, hm, (bitVec1_cases _).resolve_left hf]; rfl
  · obtain ⟨hz, h⟩ := of_ite_error h
    have hm : Word.imm c = 0 := not_not.1 hz
    split at h
    next hp => cases h; rw [hp.1, hp.2, hm]; rfl
    split at h
    next hp => cases h; rw [hp.1, hp.2, hm]; rfl
    split at h
    next hp => cases h; rw [hp.1, hp.2, hm]; rfl
    cases h
  · obtain ⟨rfl, hd, hf, hm⟩ := fields_of_row h
    rw [hd, hf, hm, encode]

theorem encode_of_decode {hv : Bool} {c : Word} {i : Instr} (h : decode hv c = .ok i) : encode i = c := by
  obtain ⟨hop, hrz, hdec⟩ := decode_ok_checks h
  rw [← wordOf_of_decodeOp hop hdec, wordOf_fields c hrz]

/-- A word made of fields that pass the checks goes to the table of R74. -/
theorem decode_wordOf {hv : Bool} {op : BitVec 4} {dim : BitVec 2} (fmt : BitVec 1) (imm : BitVec 16)
    (hop : op < 8#4) (hverify : op = 4 → hv = true) (hdim : dim ≠ 3) :
    decode hv (wordOf op dim fmt imm) = decodeOp (wordOf op dim fmt imm) := by
  have hhv : ¬ (op = 4 ∧ hv = false) := fun ⟨h4, hf⟩ => by cases (hverify h4).symm.trans hf
  simp only [decode, op_wordOf, dim_wordOf, rz_wordOf, BitVec.not_le.2 hop, hhv, hdim, and_false, if_false, ne_eq,
    not_true_eq_false]

theorem decode_encode {c : Config} {i : Instr} (h : i.wellFormed c = true) : decode c.hasVerify (encode i) = .ok i := by
  have present : ∀ {op : BitVec 4}, op ≠ 4 → op = 4 → c.hasVerify = true := fun hne he => absurd he hne
  cases i with
  | mapentry v =>
    rw [encode, decode_wordOf _ _ (by decide) (present (by decide)) (by decide)]
    simp [decodeOp]
  | mapverifyD24 | mapverifyD48 | mapverifyD256 =>
    change c.hasVerify = true at h
    rw [encode, decode_wordOf _ _ (by decide) (fun _ => h) (by decide)]
    rfl
  | _ =>
    rw [encode, decode_wordOf _ _ (by decide) (present (by decide)) (by decide)]
    rfl

end Sys2Proof
end

section
/-! The commands (spec/43_control.md R107, spec/10_state.md R18 to R24): what a step runs, what each STATE accepts, and
what each command writes. -/

namespace Sys2Proof.Machine

open Sys2Proof

/-! ### A command from the host (R31, R63) -/

/-- A legal word written to CMD runs its command, behind the ERROR gate (R106). -/
theorem writeCmd_of_decode {cfg : Config} {w : Word} {i : Instr} (s : State) (h : decode cfg.hasVerify w = .ok i) :
    writeCmd cfg w s = exec i s := by
  rw [writeCmd, h]
  split
  next he => rw [exec_eq_command, command_error s _ he]
  next => rfl

theorem transact_write_cmd (cfg : Config) (w : Word) (s : State) :
    transact cfg (.write 0x00 .w32 w) s = writeCmd cfg w (s.setReply none) := rfl

theorem transact_command {cfg : Config} {w : Word} {i : Instr} (s : State) (h : decode cfg.hasVerify w = .ok i) :
    transact cfg (.write 0x00 .w32 w) s = exec i (s.setReply none) := by
  rw [transact_write_cmd, writeCmd_of_decode _ h]

theorem wellFormed_tpq1 (i : Instr) : i.wellFormed Config.tpq1 = true := by cases i <;> rfl

/-- The table's low 32 bits of a word are the word. -/
theorem tableWord_toNat (w : Word) : tableWord 32 w.toNat = w := by
  rw [tableWord, Nat.mod_eq_of_lt w.isLt, BitVec.ofNat_toNat, BitVec.setWidth_eq]

/-- Settles O6: the transaction at the head of the list is the write of a word that decodes to the command, which for
`withFetchWord` is so because decode undoes encode. -/
theorem stepRunsTheDecodedCommand : Obligations.StepRunsTheDecodedCommand := by
  have hserved : ∀ (s : State) (w : Word) (i : Instr) (rest : List HostTxn), s.inbox = .write 0x00 .w32 w :: rest →
      decode Config.tpq1.hasVerify w = .ok i → step s = exec i { s with inbox := rest, reply := none } := by
    intro s w i rest hinbox hdec
    rw [step, serveNext, hinbox]
    exact transact_command (s.setInbox rest) hdec
  refine ⟨hserved, fun s i => ?_⟩
  refine hserved (s.withFetchWord 32 (encode i).toNat) _ i s.inbox rfl ?_
  rw [tableWord_toNat, decode_encode (wellFormed_tpq1 i)]

/-! ### Legality (R107) -/

/-- The one STATE that accepts the command, for a command that not every STATE but ERROR accepts. -/
def needs : Instr → Option Seq
  | .nop | .quantRgb565 | .quantRgba4444 => none
  | .mapentry _ | .mapend => some .loading
  | .push => some .encoding
  | .mapbeginD24 | .mapbeginD48 | .mapbeginD256 | .mapverifyD24 | .mapverifyD48 | .mapverifyD256
  | .startD24 | .startD48 | .startD256 => some .idle

theorem runsIn_iff (i : Instr) {q : Seq} (hq : q ≠ .error) : i.runsIn q = true ↔ ∀ r, needs i = some r → q = r := by
  cases i <;> cases q <;> simp [Instr.runsIn, needs] at hq ⊢

/-- Each command that needs a STATE checks it first (R114). -/
theorem effect_of_not_runsIn {i : Instr} {s : State} (hs : s.seq ≠ .error) (h : i.runsIn s.seq = false) :
    effect i s = s.sequenceError i := by
  have hneed : ∃ r, needs i = some r ∧ s.seq ≠ r := by
    simpa [runsIn_iff i hs] using Bool.eq_false_iff.1 h
  obtain ⟨r, hr, hne⟩ := hneed
  cases i with
  | nop | quantRgb565 | quantRgba4444 => cases hr
  | _ => cases hr; exact if_pos hne

theorem mapBegin_err (i : Instr) (b : Dim) {s : State} (h : s.seq = .idle) :
    (mapBegin i b s).err = s.err ∨ (mapBegin i b s).err ∈ [ErrCode.mapImmutable] := by
  rcases mapBegin_cases i b s with ⟨hne, -⟩ | ⟨-, -, e⟩ | ⟨-, -, e⟩
  · exact absurd h hne
  · simp [e]
  · simp [e]

theorem mapAppend_err (v : Entry) {s : State} (h : s.seq = .loading) :
    (mapAppend v s).err = s.err ∨ (mapAppend v s).err ∈ [ErrCode.resourceError] := by
  rcases mapAppend_cases v s with ⟨hne, -⟩ | ⟨-, -, e⟩ | ⟨-, -, e⟩
  · exact absurd h hne
  · simp [e]
  · simp [e]

theorem mapEnd_err {s : State} (h : s.seq = .loading) :
    (mapEnd s).err = s.err ∨ (mapEnd s).err ∈ [ErrCode.resourceError] := by
  rcases mapEnd_cases s with ⟨hne, -⟩ | ⟨-, -, -, e⟩ | ⟨-, -, -, e⟩ | ⟨-, -, e⟩
  · exact absurd h hne
  · simp [e]
  · simp [e]
  · simp [e]

theorem mapVerify_err (i : Instr) (b : Dim) {s : State} (h : s.seq = .idle) :
    (mapVerify i b s).err = s.err ∨ (mapVerify i b s).err ∈ [ErrCode.resourceError] := by
  rcases mapVerify_cases i b s with ⟨hne, -⟩ | ⟨-, -, e⟩ | ⟨-, -, e⟩
  · exact absurd h hne
  · simp [e]
  · simp [e]

theorem startEncode_err (i : Instr) (b : Dim) {s : State} (h : s.seq = .idle) :
    (startEncode i b s).err = s.err ∨ (startEncode i b s).err ∈ [ErrCode.dimensionError, .resourceError] := by
  rcases startEncode_cases i b s with ⟨hne, -⟩ | ⟨-, -, e⟩ | ⟨-, -, -, e⟩ | ⟨-, -, -, e⟩
  · exact absurd h hne
  · simp [e]
  · simp [e]
  · simp [e]

theorem pushPixel_err {s : State} (h : s.seq = .encoding) :
    (pushPixel s).err = s.err ∨ (pushPixel s).err ∈ [ErrCode.destOutOfRange] := by
  rcases pushPixel_cases s with ⟨hne, -⟩ | ⟨-, -, e⟩ | ⟨-, -, -, e⟩ | ⟨-, -, -, e⟩
  · exact absurd h hne
  · simp [e]
  · simp [e]
  · simp [e]

theorem err_of_listed {e x c : ErrCode} {l : List ErrCode} (h : e = x ∨ e ∈ l) (he : e = c) (hl : c ∉ l) : x = c :=
  h.elim (fun hx => hx.symm.trans he) (fun hm => absurd (he ▸ hm) hl)

/-- A command in a STATE that accepts it raises no SequenceError. -/
theorem effect_err_of_runsIn {i : Instr} {s : State} (hs : s.seq ≠ .error) (h : i.runsIn s.seq = true)
    (he : (effect i s).err = .sequenceError) : s.err = .sequenceError := by
  have hseq := (runsIn_iff i hs).1 h
  cases i with
  | nop | quantRgb565 | quantRgba4444 => exact he
  | mapbeginD24 | mapbeginD48 | mapbeginD256 => exact err_of_listed (mapBegin_err _ _ (hseq _ rfl)) he (by decide)
  | mapentry v => exact err_of_listed (mapAppend_err v (hseq _ rfl)) he (by decide)
  | mapend => exact err_of_listed (mapEnd_err (hseq _ rfl)) he (by decide)
  | mapverifyD24 | mapverifyD48 | mapverifyD256 => exact err_of_listed (mapVerify_err _ _ (hseq _ rfl)) he (by decide)
  | startD24 | startD48 | startD256 => exact err_of_listed (startEncode_err _ _ (hseq _ rfl)) he (by decide)
  | push => exact err_of_listed (pushPixel_err (hseq _ rfl)) he (by decide)

/-- ERRINFO of IllegalCommand, SequenceError and MapImmutable is the word with its lower half cleared (R113). -/
theorem commandInfo_eq (c : Word) : commandInfo c = c &&& 0xFFFF0000 := by
  have hmask : ∀ k : Fin 32, (0xFFFF0000 : Word).getLsbD k = decide (16 ≤ k.val) := by decide
  refine BitVec.eq_of_getLsbD_eq fun k hk => ?_
  rw [BitVec.getLsbD_and, hmask ⟨k, hk⟩, commandInfo, errInfo, BitVec.getLsbD_append]
  by_cases hlow : k < 16
  · simp [hlow, Nat.not_le.2 hlow]
  · simp [hlow, Nat.not_lt.1 hlow]
    omega

/-- Settles O11: a command that this STATE does not accept fails its first check, and none of the later outcomes of one
that it accepts is a SequenceError. -/
theorem commandLegalityByState : Obligations.CommandLegalityByState := by
  intro i s hs
  rw [exec_eq_command, command_eq s _ hs]
  refine ⟨fun h => ?_, fun h => ⟨_, rfl, effect_err_of_runsIn hs h⟩⟩
  rw [effect_of_not_runsIn hs h, State.sequenceError, commandInfo_eq]
  cases hq : s.seq <;> rfl

/-! ### The commands of a bank and of a format (R70, R71) -/

theorem eq_mapbeginOf {i : Instr} {b : Dim}
    (h : (i, b) ∈ [(Instr.mapbeginD24, Dim.d24), (.mapbeginD48, .d48), (.mapbeginD256, .d256)]) : i = mapbeginOf b := by
  cases b <;> simpa [mapbeginOf] using h

theorem eq_startOf {i : Instr} {b : Dim}
    (h : (i, b) ∈ [(Instr.startD24, Dim.d24), (.startD48, .d48), (.startD256, .d256)]) : i = startOf b := by
  cases b <;> simpa [startOf] using h

theorem eq_quantOf {i : Instr} {f : Format}
    (h : (i, f) ∈ [(Instr.quantRgb565, Format.rgb565), (.quantRgba4444, .rgba4444)]) : i = quantOf f := by
  cases f <;> simpa [quantOf] using h

/-! ### What a command leaves unchanged (R18, R22, R26) -/

/-- No command writes an operand register, and none touches the host's side of the model. -/
theorem EffectOf.operands {s t : State} {i : Instr} (h : EffectOf s i t) :
    t.inbox = s.inbox ∧ t.reply = s.reply ∧ t.pix = s.pix ∧ t.imgdim = s.imgdim := by
  cases h <;> exact ⟨rfl, rfl, rfl, rfl⟩

/-- Settles O13: in ERROR the command is discarded, elsewhere it has one of its effects. -/
theorem everyCommandAnswersANextState : Obligations.EveryCommandAnswersANextState := by
  intro i s
  rw [exec_eq_command]
  by_cases hs : s.seq = .error
  · exact ⟨s, command_error s _ hs, rfl, rfl, rfl, rfl⟩
  · exact ⟨_, command_eq s _ hs, (effect_cases i s).operands⟩

/-- Only PUSH writes OUT. -/
theorem EffectOf.out {s t : State} {i : Instr} (h : EffectOf s i t) (hi : i ≠ .push) : t.out = s.out := by
  cases h with
  | lastPixel | pixel => exact absurd rfl hi
  | _ => rfl

/-- Only START and PUSH write WR. -/
theorem EffectOf.wr {s t : State} {i : Instr} (h : EffectOf s i t) (hi : i ≠ .push) (hs : ∀ b, i ≠ startOf b) :
    t.wr = s.wr := by
  cases h with
  | lastPixel | pixel => exact absurd rfl hi
  | beginEncode _ b hb => exact absurd (eq_startOf hb) (hs b)
  | _ => rfl

/-- Only MAPENTRY writes MAP. -/
theorem EffectOf.map {s t : State} {i : Instr} (h : EffectOf s i t) (hi : ∀ v, i ≠ .mapentry v) : t.map = s.map := by
  cases h with
  | appendEntry v => exact absurd rfl (hi v)
  | _ => rfl

/-- Only QUANT and PUSH write QOUT. -/
theorem EffectOf.qout {s t : State} {i : Instr} (h : EffectOf s i t) (hi : i ≠ .push) (hq : ∀ f, i ≠ quantOf f) :
    t.qout = s.qout := by
  cases h with
  | lastPixel | pixel => exact absurd rfl hi
  | setQout _ f hf => exact absurd (eq_quantOf hf) (hq f)
  | _ => rfl

theorem exec_next_iff (i : Instr) (s t : State) :
    exec i s = .next t ↔ (s.seq = .error ∧ t = s) ∨ (s.seq ≠ .error ∧ t = effect i s) := by
  rw [exec_eq_command, command_next]

/-- Settles O36: a command discarded in ERROR writes nothing, and each other effect writes its own memories only. -/
theorem onlyTheRulesWritersWriteTheMemories : Obligations.OnlyTheRulesWritersWriteTheMemories := by
  intro i s t ht
  rcases (exec_next_iff i s t).1 ht with ⟨-, rfl⟩ | ⟨-, rfl⟩
  · exact ⟨fun _ _ => rfl, fun _ _ _ => rfl, fun _ _ _ => rfl, fun _ _ => rfl⟩
  · have he := effect_cases i s
    refine ⟨fun hi o => ?_, fun hi hs o => ?_, fun hi b j => ?_, he.qout⟩
    · rw [State.outByte, he.out hi, State.outByte]
    · rw [State.marked, he.wr hi hs, State.marked]
    · rw [he.map hi]

/-! ### The sequencer (R21) -/

/-- The transitions of R21 that a command makes. -/
theorem EffectOf.seq_change {s t : State} {i : Instr} (h : EffectOf s i t) (hne : t.seq ≠ s.seq) :
    (t.seq = .error ∧ t.err ≠ .none) ∨
    (s.seq = .idle ∧ t.seq = .loading ∧ ∃ b, i = mapbeginOf b ∧ t.lbank = b) ∨
    (s.seq = .loading ∧ t.seq = .idle ∧ i = .mapend) ∨
    (s.seq = .idle ∧ t.seq = .encoding ∧ ∃ b, i = startOf b ∧ t.adim = b) ∨
    (s.seq = .encoding ∧ t.seq = .idle ∧ i = .push ∧ t.idx.toNat = t.adim.entries) := by
  cases h with
  | nop | appendEntry | recordVerify | setQout | pixel => exact absurd rfl hne
  | raise _ c n v hc => exact .inl ⟨rfl, hc⟩
  | beginLoad _ b hb hs => exact .inr (.inl ⟨hs, rfl, b, eq_mapbeginOf hb, rfl⟩)
  | endLoad hs => exact .inr (.inr (.inl ⟨hs, rfl, rfl⟩))
  | beginEncode _ b hb hs => exact .inr (.inr (.inr (.inl ⟨hs, rfl, b, eq_startOf hb, rfl⟩)))
  | lastPixel hs _ hx =>
    have hidx := count_up s.idx s.adim (by omega)
    exact .inr (.inr (.inr (.inr ⟨hs, rfl, rfl, hidx.trans hx⟩)))

/-- Settles O10: reads, operand writes and ignored writes keep STATE, an illegal word is an error entry, and a command's
transitions are its own, on the word that it alone has. -/
theorem sequencerTransitionsAreTheTable : Obligations.SequencerTransitionsAreTheTable := by
  intro c x s t ht hne
  cases transact_cases c x s t ht with
  | read | ignored | pix | imgdim => exact absurd rfl hne
  | reset => exact .inl ⟨rfl, rfl⟩
  | illegal _ _ hs => exact .inr (.inl ⟨hs, rfl, fun he => by cases he⟩)
  | command w i hs hd =>
    rw [← encode_of_decode hd]
    rcases (effect_cases i (s.setReply none)).seq_change hne with ⟨hq, he⟩ | ⟨hq, hq', b, rfl, hb⟩ | ⟨hq, hq', rfl⟩ |
      ⟨hq, hq', b, rfl, hb⟩ | ⟨hq, hq', rfl, hx⟩
    · exact .inr (.inl ⟨hs, hq, he⟩)
    · exact .inr (.inr (.inl ⟨hq, hq', b, rfl, hb⟩))
    · exact .inr (.inr (.inr (.inl ⟨hq, hq', rfl⟩)))
    · exact .inr (.inr (.inr (.inr (.inl ⟨hq, hq', b, rfl, hb⟩))))
    · exact .inr (.inr (.inr (.inr (.inr ⟨hq, hq', rfl, hx⟩))))

/-! ### Loaded tables (R23) -/

/-- LOADED[b] is set by MAPEND alone, in LOADING, for LBANK. -/
theorem EffectOf.loaded_set {s t : State} {i : Instr} (h : EffectOf s i t) {b : Dim} (hs : s.loaded.get b = false)
    (ht : t.loaded.get b = true) : i = .mapend ∧ s.seq = .loading ∧ b = s.lbank := by
  cases h with
  | endLoad hq => exact ⟨rfl, hq, ((endLoad_loaded_get s b).1 ht).resolve_right (by simp [hs])⟩
  | _ => cases hs.symm.trans ht

/-- While LOADED[b] is set no command clears it or writes MAP[b]. -/
theorem EffectOf.loaded_kept {s t : State} {i : Instr} (h : EffectOf s i t) (hinv : s.Inv) {b : Dim}
    (hb : s.loaded.get b = true) : t.loaded.get b = true ∧ t.map.get b = s.map.get b := by
  cases h with
  | appendEntry v hq => exact ⟨hb, hinv.appendEntry_map_loaded v hq hb⟩
  | endLoad => exact ⟨(endLoad_loaded_get s b).2 (.inr hb), rfl⟩
  | _ => exact ⟨hb, rfl⟩

/-- MAPBEGIN of a loaded bank in IDLE (R81). -/
theorem transact_mapbegin_loaded (c : Config) (b : Dim) {s t : State} (hs : s.seq = .idle) (hb : s.loaded.get b = true)
    (ht : transact c (.write 0x00 .w32 (encode (mapbeginOf b))) s = .next t) : t.err = .mapImmutable := by
  have hwf : (mapbeginOf b).wellFormed c = true := by cases b <;> rfl
  have hne : (s.setReply none).seq ≠ .error := by simp [hs]
  have heffect : effect (mapbeginOf b) = mapBegin (mapbeginOf b) b := by cases b <;> rfl
  rw [transact_command s (decode_encode hwf), exec_eq_command, command_eq _ _ hne, heffect] at ht
  cases ht
  rcases mapBegin_cases (mapbeginOf b) b (s.setReply none) with ⟨hq, -⟩ | ⟨-, -, e⟩ | ⟨-, hl, -⟩
  · exact absurd hs hq
  · rw [e, State.raiseError_err]
  · cases hb.symm.trans hl

/-- Settles O23: of the transactions only a command touches a bank or its LOADED bit outside reset. -/
theorem aLoadedTableIsImmutable : Obligations.ALoadedTableIsImmutable := by
  intro c x s t b hinv ht
  refine ⟨?_, ?_, ?_, fun hx hs hb => transact_mapbegin_loaded c b hs hb (hx ▸ ht)⟩
  · rintro rfl
    cases ht
    cases b <;> rfl
  · intro hb hb'
    cases transact_cases c x s t ht with
    | command w i _ hd =>
      obtain ⟨rfl, hq, hl⟩ := (effect_cases i (s.setReply none)).loaded_set hb hb'
      exact ⟨by rw [encode_of_decode hd], hq, hl⟩
    | reset => cases b <;> cases hb'
    | _ => cases hb.symm.trans hb'
  · intro hx hb
    cases transact_cases c x s t ht with
    | command _ i => exact (effect_cases i _).loaded_kept (hinv.setReply none) hb
    | reset => exact absurd rfl hx
    | _ => exact ⟨hb, rfl⟩

end Sys2Proof.Machine
end

section
/-! The registers on the host bus (spec/10_state.md R30 to R39, R44; spec/20_memory.md R49 to R54) and the assembler's
lines (spec/30_encoding.md R79, R80). -/

namespace Sys2Proof.Machine

open Sys2Proof

/-! ### Aligned accesses -/

theorem legalAccess_of_register {a : Offset} (ha : a.toNat % 4 = 0) : legalAccess a .w32 = true :=
  (legalAccess_iff a .w32).2 ⟨by decide, ha, .inr rfl⟩

theorem inWindow_of_lt {a : Offset} (h : a.toNat < 0x10000) : inWindow a = false := by
  rw [← Bool.not_eq_true, inWindow_iff]
  omega

/-- An aligned 32-bit read of the register space returns the register and changes nothing of the block (R50, R60). -/
theorem transact_read_register (c : Config) {a : Offset} (s : State) (h : a.toNat < 0x10000) (ha : a.toNat % 4 = 0) :
    transact c (.read a .w32) s = .next (s.setReply (some (readRegister a s))) := by
  simp only [transact, hostRead, legalAccess_of_register ha, inWindow_of_lt h, Bool.true_eq_false, if_false,
    Bool.false_eq_true]

theorem transact_write_register (c : Config) {a : Offset} (v : Word) (s : State) (h : a.toNat < 0x10000)
    (ha : a.toNat % 4 = 0) : transact c (.write a .w32 v) s = writeRegister c a v (s.setReply none) := by
  simp only [transact, hostWrite, legalAccess_of_register ha, inWindow_of_lt h, Bool.true_eq_false, if_false,
    Bool.false_eq_true]

/-- A legal write of the OUT window is ignored (R54). -/
theorem transact_write_window (c : Config) {a : Offset} {w : Width} (v : Word) (s : State) (h : 0x10000 ≤ a.toNat)
    (hw : w ≠ .wider) (ha : a.toNat % w.bytes = 0) : transact c (.write a w v) s = .next (s.setReply none) := by
  simp only [transact, hostWrite, (legalAccess_iff a w).2 ⟨hw, ha, .inl h⟩, (inWindow_iff a).2 h, Bool.true_eq_false,
    if_false, if_true]

/-- A write outside CMD, PIX and IMGDIM is ignored (R39, R54). -/
theorem writeRegister_ignored (c : Config) {a : Offset} (v : Word) (s : State) (h0 : a ≠ 0x00) (h4 : a ≠ 0x04)
    (h8 : a ≠ 0x08) : writeRegister c a v s = .next s := by
  rw [writeRegister, if_neg h0, if_neg h4, if_neg h8]

/-- The offsets from 0x24 hold no register (R30, R39). -/
theorem readRegister_reserved {a : Offset} (s : State) (h : 0x24 ≤ a.toNat) : readRegister a s = 0 := by
  have hne : ∀ r : Offset, r.toNat < 0x24 → a ≠ r := fun r hr he => absurd (he ▸ h) (Nat.not_le.2 hr)
  rw [readRegister, if_neg (hne _ (by decide)), if_neg (hne _ (by decide)), if_neg (hne _ (by decide)),
    if_neg (hne _ (by decide)), if_neg (hne _ (by decide)), if_neg (hne _ (by decide)), if_neg (hne _ (by decide)),
    if_neg (hne _ (by decide))]

/-- A 16-bit register reads zero-extended (R34, R36). -/
theorem setWidth_word (x : BitVec 16) : x.setWidth 32 = 0#16 ++ x := by
  apply BitVec.eq_of_toNat_eq
  rw [append_toNat, BitVec.toNat_setWidth, BitVec.toNat_ofNat]
  have := x.isLt
  omega

/-- Settles O42: such a write falls through the register space's three writers, or into the window. -/
theorem ignoredWritesChangeNothing : Obligations.IgnoredWritesChangeNothing := by
  intro c s
  refine ⟨fun a v h ha h0 h4 h8 => ?_, fun a w v h hw ha => transact_write_window c v s h hw ha, ?_⟩
  · rw [transact_write_register c v s h ha, writeRegister_ignored c v _ h0 h4 h8]
    rfl
  · exact transact_read_register c s (by decide) (by decide)

/-- Settles O39: each register's offset is aligned and in the register space, and `readRegister` gives its content. -/
theorem registerReadsReturnTheirContent : Obligations.RegisterReadsReturnTheirContent := by
  intro c s
  have hrd : ∀ a : Offset, a.toNat < 0x10000 → a.toNat % 4 = 0 →
      transact c (.read a .w32) s = .next (s.setReply (some (readRegister a s))) :=
    fun a => transact_read_register c s
  refine ⟨hrd _ (by decide) (by decide), hrd _ (by decide) (by decide), hrd _ (by decide) (by decide), ?_,
    hrd _ (by decide) (by decide), ?_, ?_, hrd _ (by decide) (by decide), hrd _ (by decide) (by decide),
    fun a hlo h ha => ?_⟩
  · rw [← setWidth_word]
    exact hrd _ (by decide) (by decide)
  · rw [← setWidth_word]
    exact hrd _ (by decide) (by decide)
  · rw [← setWidth_word]
    exact hrd _ (by decide) (by decide)
  · rw [← readRegister_reserved s hlo]
    exact hrd a h ha

/-- Settles O41: both offsets are aligned and in the register space, before any look at STATE. -/
theorem operandWritesAreTakenInEveryState : Obligations.OperandWritesAreTakenInEveryState := by
  intro c v s
  exact ⟨transact_write_register c v s (by decide) (by decide), transact_write_register c v s (by decide) (by decide)⟩

/-! ### STATUS (R35) -/

/-- STATUS as a number: each field at its bit, and nothing at the reserved bits. -/
theorem status_toNat (s : State) : s.status.toNat =
    s.seq.code.toNat + (bit s.bvalid).toNat * 2 ^ 3 + s.err.code.toNat * 2 ^ 4 + s.errsub.toNat * 2 ^ 8 +
    (bit s.loaded.d24).toNat * 2 ^ 12 + (bit s.loaded.d48).toNat * 2 ^ 13 + (bit s.loaded.d256).toNat * 2 ^ 14 +
    s.adim.code.toNat * 2 ^ 16 + s.afmt.code.toNat * 2 ^ 18 + s.lbank.code.toNat * 2 ^ 20 +
    (bit s.vdone).toNat * 2 ^ 22 + (bit s.vok).toNat * 2 ^ 23 + s.vbank.code.toNat * 2 ^ 24 := by
  simp only [State.status, append_toNat, BitVec.toNat_ofNat]
  omega

theorem extractLsb'_eq_of_toNat {c : Word} {k w : Nat} {x : BitVec w} (h : c.toNat / 2 ^ k % 2 ^ w = x.toNat) :
    c.extractLsb' k w = x := by
  apply BitVec.eq_of_toNat_eq
  rw [BitVec.extractLsb'_toNat, Nat.shiftRight_eq_div_pow, h]

/-- Every bit of STATUS (R35, R39): each field is the code of its piece of state, and the reserved bits are 0. -/
theorem status_fields (s : State) :
    s.status.extractLsb' 0 3 = s.seq.code ∧ s.status.extractLsb' 3 1 = bit s.bvalid ∧
    s.status.extractLsb' 4 4 = s.err.code ∧ s.status.extractLsb' 8 4 = s.errsub ∧
    s.status.extractLsb' 12 1 = bit s.loaded.d24 ∧ s.status.extractLsb' 13 1 = bit s.loaded.d48 ∧
    s.status.extractLsb' 14 1 = bit s.loaded.d256 ∧ s.status.extractLsb' 15 1 = 0 ∧
    s.status.extractLsb' 16 2 = s.adim.code ∧ s.status.extractLsb' 18 1 = s.afmt.code ∧
    s.status.extractLsb' 19 1 = 0 ∧ s.status.extractLsb' 20 2 = s.lbank.code ∧
    s.status.extractLsb' 22 1 = bit s.vdone ∧ s.status.extractLsb' 23 1 = bit s.vok ∧
    s.status.extractLsb' 24 2 = s.vbank.code ∧ s.status.extractLsb' 26 6 = 0 := by
  have hs := status_toNat s
  have h1 : (0 : BitVec 1).toNat = 0 := rfl
  have h6 : (0 : BitVec 6).toNat = 0 := rfl
  refine ⟨?_, ?_, ?_, ?_, ?_, ?_, ?_, ?_, ?_, ?_, ?_, ?_, ?_, ?_, ?_, ?_⟩ <;>
    exact extractLsb'_eq_of_toNat (by omega)

/-- Settles O40: the fields of STATUS are the codes, and the codes are the rules' numbers. -/
theorem statusHoldsTheFieldsOfTheState : Obligations.StatusHoldsTheFieldsOfTheState := by
  intro s
  obtain ⟨hseq, hbvalid, herr, hsub, hl0, hl1, hl2, h15, hadim, hafmt, h19, hlbank, hvdone, hvok, hvbank, h26⟩ :=
    status_fields s
  refine ⟨hseq.trans ?_, hbvalid, herr.trans ?_, hsub, hl0, hl1, hl2, h15, hadim.trans ?_, hafmt.trans ?_, h19,
    hlbank.trans ?_, hvdone, hvok, hvbank.trans ?_, h26⟩
  · cases s.seq <;> rfl
  · cases s.err <;> rfl
  · cases s.adim <;> rfl
  · cases s.afmt <;> rfl
  · cases s.lbank <;> rfl
  · cases s.vbank <;> rfl

/-- Settles O54: the reset state written out. -/
theorem resetStateHoldsTheStatedValues : Obligations.ResetStateHoldsTheStatedValues := by
  refine ⟨rfl, rfl, rfl, rfl, rfl, rfl, rfl, rfl, rfl, rfl, rfl, rfl, rfl, rfl, rfl, rfl, rfl, rfl, rfl, fun _ => rfl, rfl⟩

/-! ### The assembler's lines (R79, R80) -/

/-- START's format is RGBA4444 for the banner alone (R75). -/
theorem eq_format_iff (b : Dim) (f : Format) : f = b.format ↔ (b = .d256 ↔ f = .rgba4444) := by
  cases b <;> cases f <;> decide

theorem imageSize_eq (w h : BitVec 16) : imageSize w h = BitVec.ofNat 32 (w.toNat * 2 ^ 16 + h.toNat) := by
  apply BitVec.eq_of_toNat_eq
  rw [imageSize, append_toNat, BitVec.toNat_ofNat]
  omega

theorem windowOffset_eq (o : BitVec 16) : windowOffset o = BitVec.ofNat 17 (0x10000 + o.toNat) := by
  apply BitVec.eq_of_toNat_eq
  rw [windowOffset_toNat, BitVec.toNat_ofNat]
  omega

/-- Settles O52: each line's transactions with the registers' offsets written out; a line that can be refused is refused
on the condition the rule gives. -/
theorem assemblerLinesAreTheirWords : Obligations.AssemblerLinesAreTheirWords := by
  refine ⟨fun _ => rfl, fun b f => ?_, fun r a hra => ?_, fun w o => ?_, fun _ _ => rfl, fun _ => rfl, fun b ts => ?_,
    fun b w h ps => ?_, rfl⟩
  · exact if_congr (eq_format_iff b f) rfl rfl
  · simp only [List.mem_cons, List.not_mem_nil, Prod.mk.injEq, or_false] at hra
    rcases hra with ⟨rfl, rfl⟩ | ⟨rfl, rfl⟩ | ⟨rfl, rfl⟩ | ⟨rfl, rfl⟩ | ⟨rfl, rfl⟩ | ⟨rfl, rfl⟩ | ⟨rfl, rfl⟩ |
      ⟨rfl, rfl⟩ | ⟨rfl, rfl⟩ <;> exact ⟨fun _ => rfl, rfl⟩
  · rw [AsmLine.assemble, windowOffset_eq]
  · rfl
  · rw [AsmLine.assemble, encodeTxns, imageSize_eq]
    rfl

end Sys2Proof.Machine
end

section
/-! Several blocks on one host bus (spec/20_memory.md R61, spec/60_exceptions.md R125): who serves a host access. -/

namespace Sys2Proof.Machine

open Sys2Proof

/-- An access that answers next is one transaction of one block that decodes its address, and the others stay. -/
theorem access_next (addr : Nat) (x : BusAccess) (p p' : Platform) (h : Platform.access addr x p = some (.next p')) :
    ∃ k q a t, p[k]? = some q ∧ q.offset addr = some a ∧ transact q.cfg (x.at a) q.st = .next t ∧
      p' = p.set k { q with st := t } := by
  induction p generalizing p' with
  | nil => cases h
  | cons q p ih =>
    rw [Platform.access] at h
    split at h
    next a ha =>
      cases ht : transact q.cfg (x.at a) q.st with
      | next t =>
        rw [ht] at h
        cases h
        exact ⟨0, q, a, t, rfl, ha, ht, rfl⟩
      | fault f => rw [ht] at h; cases h
      | refused r => rw [ht] at h; cases h
    next =>
      obtain ⟨o, ho, hkeep⟩ := Option.map_eq_some_iff.1 h
      cases o with
      | next ps =>
        cases hkeep
        obtain ⟨k, r, a, t, hk, ha, ht, rfl⟩ := ih ps ho
        exact ⟨k + 1, r, a, t, hk, ha, ht, rfl⟩
      | fault f => cases hkeep
      | refused r => cases hkeep

theorem resetAt_getElem?_same (k : Nat) (p : Platform) (q : Placed) (h : p[k]? = some q) :
    (Platform.resetAt k p)[k]? = some { q with st := q.st.applyReset } := by
  simp [Platform.resetAt, h]

theorem resetAt_getElem?_other {j k : Nat} (p : Platform) (h : j ≠ k) : (Platform.resetAt k p)[j]? = p[j]? := by
  simp [Platform.resetAt, h.symm]

theorem start_getElem? (places : List (Nat × Config)) (k : Nat) :
    (Platform.start places)[k]? = (places[k]?).map (fun (b, c) => { base := b, cfg := c, st := State.reset }) :=
  List.getElem?_map

/-- Settles O58, from what an access, a reset input and power-on each do to the list of blocks. -/
theorem instancesShareNothing : Obligations.InstancesShareNothing :=
  ⟨access_next, fun k p => ⟨resetAt_getElem?_same k p, fun _ => resetAt_getElem?_other p⟩, start_getElem?⟩

end Sys2Proof.Machine
end

section
/-! The memory's statements (spec/20_memory.md R51 to R63, spec/70_reset_and_hazards.md R142): what a read of the OUT
window answers, that a read leaves the block as it is, and accesses to different blocks. -/

namespace Sys2Proof.Machine

open Sys2Proof

/-! ### Reads (R60) -/

/-- A read that answers leaves its value in the reply and changes nothing else. -/
theorem transact_read_next_iff (cfg : Config) (a : Offset) (w : Width) (s t : State) :
    transact cfg (.read a w) s = .next t ↔ ∃ v, hostRead a w s = .ok v ∧ t = s.setReply (some v) := by
  unfold transact
  cases hr : hostRead a w s <;> simp [hr, eq_comm (a := t)]

@[simp] theorem State.setReply_setReply (s : State) (q r : Option Word) : (s.setReply q).setReply r = s.setReply r := rfl

/-- No read looks at what an earlier one returned. -/
@[simp] theorem hostRead_setReply (a : Offset) (w : Width) (s : State) (r : Option Word) :
    hostRead a w (s.setReply r) = hostRead a w s := by
  have hbytes : (s.setReply r).windowBytes (windowByte a) w.bytes = s.windowBytes (windowByte a) w.bytes :=
    windowBytes_congr s (s.setReply r) (fun _ => rfl) _ _
  have hregister : readRegister a (s.setReply r) = readRegister a s := rfl
  simp only [hostRead, readWindow, State.setReply_bvalid, hbytes, hregister]

/-- A read answers the same after another read as before it, whether a value or a fault. -/
theorem transact_read_setReply (cfg : Config) (a : Offset) (w : Width) (s : State) (r : Option Word) :
    transact cfg (.read a w) (s.setReply r) = transact cfg (.read a w) s := by
  simp only [transact, hostRead_setReply, State.setReply_setReply]

/-! ### Reads of the OUT window (R51, R56 to R58) -/

theorem transact_window_next (cfg : Config) {o : BitVec 16} {w : Width} {s : State} {v : Word} (hw : w ≠ .wider)
    (ha : o.toNat % w.bytes = 0) (h : readWindow o.toNat w.bytes s = .ok v) :
    transact cfg (.read (windowOffset o) w) s = .next (s.setReply (some v)) :=
  (transact_read_next_iff cfg _ w s _).2 ⟨v, (hostRead_windowOffset o w s hw ha).trans h, rfl⟩

theorem transact_window_fault (cfg : Config) {o : BitVec 16} {w : Width} {s : State} {f : Fault} (hw : w ≠ .wider)
    (ha : o.toNat % w.bytes = 0) (h : readWindow o.toNat w.bytes s = .error f) :
    transact cfg (.read (windowOffset o) w) s = .fault f :=
  (transact_read_fault_iff cfg _ w s f).2 ((hostRead_windowOffset o w s hw ha).trans h)

theorem readWindow_of_not_bvalid {s : State} (hb : s.bvalid = false) (o n : Nat) :
    readWindow o n s = .error .blobNotReady := if_pos hb

theorem readWindow_of_ok {s : State} {o n : Nat} {bs : List Byte} (hb : s.bvalid = true)
    (h : s.windowBytes o n = .ok bs) : readWindow o n s = .ok (bytesLE bs) := by
  simp [readWindow, hb, h]

theorem readWindow_of_error {s : State} {o n : Nat} {f : Fault} (hb : s.bvalid = true)
    (h : s.windowBytes o n = .error f) : readWindow o n s = .error f := by
  simp [readWindow, hb, h]

theorem bytes_le_four {w : Width} (h : w ≠ .wider) : w.bytes ≤ 4 := by
  cases w with
  | wider => exact absurd rfl h
  | _ => decide

/-- The bytes no read may return: past the blob, or not marked. A marked byte has a value, since it was written. -/
theorem State.Inv.admittedByte_eq_none_iff {s : State} (h : s.Inv) (o : Nat) :
    s.admittedByte o = none ↔ s.adim.blobBytes ≤ o ∨ s.marked o = false := by
  by_cases hr : o < s.adim.blobBytes ∧ s.marked o = true
  · obtain ⟨ho, hm⟩ := hr
    obtain ⟨v, hv⟩ := h.markedWritten o hm
    simp [admittedByte_of_marked s o ho hm, hv, hm, Nat.not_le.2 ho]
  · have hn : s.admittedByte o = none := if_neg hr
    rw [not_and_or, Nat.not_lt, Bool.not_eq_true] at hr
    exact ⟨fun _ => hr, fun _ => hn⟩

/-- A read that covers a byte no read may return names one it covers. -/
theorem windowBytes_unreadable (s : State) {o n k : Nat} (hk : k < n) (h : s.admittedByte (o + k) = none) :
    ∃ p, s.windowBytes o n = .error (.unwrittenRead p) ∧ o ≤ p ∧ p < o + n ∧ s.admittedByte p = none := by
  cases hr : s.windowBytes o n with
  | ok bs =>
    obtain ⟨hlen, hget⟩ := windowBytes_ok s n o bs hr
    cases h.symm.trans (hget k (hlen ▸ hk))
  | error f =>
    obtain ⟨p, rfl, hp⟩ := windowBytes_error s n o f hr
    exact ⟨p, rfl, hp⟩

/-- There is no blob in ERROR (R27, R112). -/
theorem State.Inv.bvalid_error {s : State} (h : s.Inv) (hs : s.seq = .error) : s.bvalid = false := by
  refine Bool.eq_false_iff.2 fun hv => ?_
  obtain ⟨hseq, -⟩ := h.blobComplete hv
  simp [hs] at hseq

/-- Settles O45: every byte covered is admitted, so the read answers, and `bytesLE` keeps each byte in its place. -/
theorem admittedWindowReadReturnsTheBytes : Obligations.AdmittedWindowReadReturnsTheBytes := by
  intro c s o w hinv hw ha hb hend hmarked
  have hadm : ∀ k, k < w.bytes → s.admittedByte (o.toNat + k) = s.outByte (o.toNat + k) := fun k hk =>
    admittedByte_of_marked s _ (Nat.lt_of_lt_of_le (Nat.add_lt_add_left hk _) hend) (hmarked k hk)
  have hreadable : ∀ p, o.toNat ≤ p → p < o.toNat + w.bytes → ∃ b, s.admittedByte p = some b := by
    intro p hlo hhi
    obtain ⟨k, rfl⟩ := Nat.exists_eq_add_of_le hlo
    have hk : k < w.bytes := Nat.lt_of_add_lt_add_left hhi
    rw [hadm k hk]
    exact hinv.markedWritten _ (hmarked k hk)
  obtain ⟨bs, hbs⟩ := windowBytes_answers s _ _ hreadable
  obtain ⟨hlen, hget⟩ := windowBytes_ok s _ _ bs hbs
  obtain ⟨hsize, hbyte⟩ := bytesLE_spec bs (hlen ▸ bytes_le_four hw)
  refine ⟨bytesLE bs, transact_window_next c hw ha (readWindow_of_ok hb hbs), fun k hk => ?_, hlen ▸ hsize⟩
  rw [hbyte k (hlen ▸ hk), ← hget k (hlen ▸ hk), hadm k hk]

/-- Settles O46: BVALID is the first thing a legal window read looks at, and the invariant clears it in ENCODING and in
ERROR. -/
theorem windowReadWithoutABlobFaults : Obligations.WindowReadWithoutABlobFaults := by
  refine ⟨fun c s o w hw ha hb => transact_window_fault c hw ha (readWindow_of_not_bvalid hb _ _), fun s hinv hs => ?_,
    rfl⟩
  rcases hs with hs | hs
  · exact hinv.bvalid_encoding hs
  · exact hinv.bvalid_error hs

/-- Settles O47: over the invariant the unreadable bytes are those not admitted, and a bijection marks the whole blob. -/
theorem windowReadOfAnUnwrittenByteFaults : Obligations.WindowReadOfAnUnwrittenByteFaults := by
  intro s hinv hb
  refine ⟨fun c o w hw ha ⟨k, hk, hun⟩ => ?_, marked_of_bijective s hinv hb⟩
  obtain ⟨p, hp, hlo, hhi, hnone⟩ := windowBytes_unreadable s hk ((hinv.admittedByte_eq_none_iff _).2 hun)
  exact ⟨p, transact_window_fault c hw ha (readWindow_of_error hb hp), hlo, hhi, (hinv.admittedByte_eq_none_iff p).1 hnone⟩

/-- Settles O44: alignment is the second condition of a legal access, in the window as elsewhere. -/
theorem misalignedWindowWriteIsABusError : Obligations.MisalignedWindowWriteIsABusError := by
  intro c s a w v _ hmis
  rw [transact_write_busError_iff, legalAccess_eq_false_iff]
  exact .inr (.inl hmis)

/-- Settles O48: a read changes the reply alone, and no read depends on the reply. -/
theorem readsAreFreeOfSideEffects : Obligations.ReadsAreFreeOfSideEffects := by
  intro c s t a w
  simp only [transact_read_next_iff c a w]
  refine ⟨?_, ?_⟩
  · rintro ⟨v, -, rfl⟩
    exact ⟨rfl, nofun⟩
  · rintro a' w' ⟨v, -, rfl⟩
    rw [transact_read_setReply]
    exact ⟨fun _ => id, fun _ => id⟩

/-! ### Accesses to different blocks (R63, R142) -/

/-- The first block serves an access whose address it decodes. -/
theorem access_cons_of_decodes {q : Placed} {addr : Nat} {a : Offset} (h : q.offset addr = some a) (x : BusAccess)
    (ps p' : Platform) : Platform.access addr x (q :: ps) = some (.next p') ↔
      ∃ t, transact q.cfg (x.at a) q.st = .next t ∧ p' = { q with st := t } :: ps := by
  rw [Platform.access, h]
  cases ht : transact q.cfg (x.at a) q.st <;> simp [ht, Placed.settle, eq_comm (a := p')]

/-- Where the first block does not decode the address, it stays and the access is the others'. -/
theorem access_cons_of_not_decodes {q : Placed} {addr : Nat} (h : q.offset addr = none) (x : BusAccess)
    (ps p' : Platform) : Platform.access addr x (q :: ps) = some (.next p') ↔
      ∃ ps', Platform.access addr x ps = some (.next ps') ∧ p' = q :: ps' := by
  rw [Platform.access, h]
  rcases Platform.access addr x ps with _ | (_ | _ | _) <;> simp [Placed.keep, eq_comm (a := p')]

/-- The first block serves one access and the others serve the other: neither sees what the other changes. -/
theorem access_commute_of_first_decodes {q : Placed} {addr addr' : Nat} {a : Offset} {x x' : BusAccess}
    {ps p₁ p₂ : Platform} (ha : q.offset addr = some a) (ha' : q.offset addr' = none)
    (h₁ : Platform.access addr x (q :: ps) = some (.next p₁))
    (h₂ : Platform.access addr' x' (q :: ps) = some (.next p₂)) :
    ∃ p₃, Platform.access addr' x' p₁ = some (.next p₃) ∧ Platform.access addr x p₂ = some (.next p₃) := by
  obtain ⟨t, ht, rfl⟩ := (access_cons_of_decodes ha x ps p₁).1 h₁
  obtain ⟨ps', hps, rfl⟩ := (access_cons_of_not_decodes ha' x' ps p₂).1 h₂
  have hstays : ({ q with st := t } : Placed).offset addr' = none := ha'
  exact ⟨{ q with st := t } :: ps', (access_cons_of_not_decodes hstays x' ps _).2 ⟨ps', hps, rfl⟩,
    (access_cons_of_decodes ha x ps' _).2 ⟨t, ht, rfl⟩⟩

/-- Settles O59, by induction on the list of blocks: the first one serves at most one of the two accesses. -/
theorem accessesToDifferentInstancesCommute : Obligations.AccessesToDifferentInstancesCommute := by
  intro addr addr' x x' p
  induction p with
  | nil => exact fun _ _ _ h₁ => nomatch h₁
  | cons q ps ih =>
    intro p₁ p₂ hapart h₁ h₂
    obtain ⟨hq, hps⟩ := List.forall_mem_cons.1 hapart
    cases ha : q.offset addr with
    | some a =>
      have ha' : q.offset addr' = none := hq.resolve_left (by simp [ha])
      exact access_commute_of_first_decodes ha ha' h₁ h₂
    | none =>
      cases ha' : q.offset addr' with
      | some a' =>
        obtain ⟨p₃, h₃, h₃'⟩ := access_commute_of_first_decodes ha' ha h₂ h₁
        exact ⟨p₃, h₃', h₃⟩
      | none =>
        obtain ⟨ps₁, hps₁, rfl⟩ := (access_cons_of_not_decodes ha x ps p₁).1 h₁
        obtain ⟨ps₂, hps₂, rfl⟩ := (access_cons_of_not_decodes ha' x' ps p₂).1 h₂
        obtain ⟨ps₃, h₃, h₃'⟩ := ih ps₁ ps₂ hps hps₁ hps₂
        exact ⟨q :: ps₃, (access_cons_of_not_decodes ha' x' ps₁ _).2 ⟨ps₃, h₃, rfl⟩,
          (access_cons_of_not_decodes ha x ps₂ _).2 ⟨ps₃, h₃', rfl⟩⟩

end Sys2Proof.Machine
end

section
/-! The encoding's statements (spec/30_encoding.md R73 to R75): which words are legal, what an illegal one does, and
what a write of any word to CMD does. -/

namespace Sys2Proof.Machine

open Sys2Proof

/-! ### Legal words (R73) -/

/-- What decodes is a command the implementation has: MAPVERIFY's words pass the check of `HAS_VERIFY` (R74). -/
theorem wellFormed_of_decode {c : Config} {w : Word} {i : Instr} (h : decode c.hasVerify w = .ok i) :
    i.wellFormed c = true := by
  obtain rfl := encode_of_decode h
  cases i with
  | mapverifyD24 | mapverifyD48 | mapverifyD256 =>
    refine Bool.of_not_eq_false fun hv : c.hasVerify = false => ?_
    rw [hv] at h
    cases h
  | _ => rfl

theorem decode_ok_iff (c : Config) (w : Word) (i : Instr) :
    decode c.hasVerify w = .ok i ↔ encode i = w ∧ i.wellFormed c = true :=
  ⟨fun h => ⟨encode_of_decode h, wellFormed_of_decode h⟩, fun ⟨hw, h⟩ => hw ▸ decode_encode h⟩

/-- Settles O1: the word's fields are the command's, and each row of the decode reads its own fields back. -/
theorem decodeOfEncodeIsTheCommand : Obligations.DecodeOfEncodeIsTheCommand := fun _ _ h => decode_encode h

/-- Settles O2: the fields that pass the checks are those of the command's own word. -/
theorem encodeOfDecodeIsTheWord : Obligations.EncodeOfDecodeIsTheWord := fun c w i => (decode_ok_iff c w i).1

theorem encode_mapentry (v : Entry) : encode (.mapentry v) = 0x2000#16 ++ v := by
  apply BitVec.eq_of_toNat_eq
  rw [encode, wordOf_toNat, append_toNat]
  rfl

/-- A word outside the table, written outside ERROR, is IllegalCommand (R73, R74, R112). -/
theorem transact_illegal {c : Config} {w : Word} {e : IllegalCause} {s : State} (hs : s.seq ≠ .error)
    (hd : decode c.hasVerify w = .error e) : transact c (.write 0x00 .w32 w) s =
      .next ((s.setReply none).raiseError .illegalCommand e.sub (commandInfo w)) := by
  rw [transact_write_cmd, writeCmd, State.setReply_seq, if_neg hs, hd]

/-- Settles O3: the legal words are the encoder's, row by row. -/
theorem legalWordsAreExactlyTheTable : Obligations.LegalWordsAreExactlyTheTable := by
  refine ⟨fun hv w i => ?_, fun c w s hs hw => ?_⟩
  · rw [decode_ok_iff ⟨hv⟩ w i, eq_comm]
    cases i with
    | mapentry v => simp [encode_mapentry, Instr.wellFormed]
    | _ => simp [encode, wordOf, Dim.code, Format.code, Dim.format, Instr.wellFormed, and_comm]
  · cases hd : decode c.hasVerify w with
    | ok i => exact absurd hd (hw i)
    | error e => exact ⟨e.sub, by rw [transact_illegal hs hd, commandInfo_eq]; rfl⟩

/-- Settles O5: the sample words decoded. -/
theorem sampleWordsDecodeAsWritten : Obligations.SampleWordsDecodeAsWritten := by
  unfold Obligations.SampleWordsDecodeAsWritten
  decide

/-! ### The decode rule over the word as a number (R74) -/

theorem op_eq_iff (w : Word) (x : BitVec 4) : Word.op w = x ↔ w.toNat / 2 ^ 28 = x.toNat := by
  rw [← op_toNat, BitVec.toNat_inj]

theorem dim_eq_iff (w : Word) (x : BitVec 2) : Word.dim w = x ↔ w.toNat / 2 ^ 26 % 4 = x.toNat := by
  rw [← dim_toNat, BitVec.toNat_inj]

theorem fmt_eq_iff (w : Word) (x : BitVec 1) : Word.fmt w = x ↔ w.toNat / 2 ^ 25 % 2 = x.toNat := by
  rw [← fmt_toNat, BitVec.toNat_inj]

theorem rz_eq_iff (w : Word) (x : BitVec 9) : Word.rz w = x ↔ w.toNat / 2 ^ 16 % 512 = x.toNat := by
  rw [← rz_toNat, BitVec.toNat_inj]

theorem imm_eq_iff (w : Word) (x : BitVec 16) : Word.imm w = x ↔ w.toNat % 2 ^ 16 = x.toNat := by
  rw [← imm_toNat, BitVec.toNat_inj]

/-- What a CMD write does outside ERROR with the decode of its word (R74): the command, or IllegalCommand. -/
def respond (w : Word) (t : State) : Except IllegalCause Instr → Host.Outcome State Fault Refusal
  | .ok i => exec i t
  | .error e => .next (t.raiseError .illegalCommand e.sub (commandInfo w))

theorem writeCmd_eq_respond (c : Config) (w : Word) (s : State) :
    writeCmd c w s = if s.seq = .error then .next s else respond w s (decode c.hasVerify w) := by
  rw [writeCmd]
  cases decode c.hasVerify w <;> rfl

/-- ERRINFO of IllegalCommand as a number (R113). -/
theorem commandInfo_eq_ofNat (w : Word) : commandInfo w = BitVec.ofNat 32 (w.toNat / 2 ^ 16 * 2 ^ 16) := by
  have := w.isLt
  apply BitVec.eq_of_toNat_eq
  rw [commandInfo, errInfo, append_toNat, BitVec.extractLsb'_toNat, BitVec.toNat_ofNat, Nat.shiftRight_eq_div_pow]
  change _ + 0 = _
  omega

theorem imm_eq_ofNat (w : Word) : Word.imm w = BitVec.ofNat 16 (w.toNat % 2 ^ 16) := by
  rw [← imm_toNat, BitVec.ofNat_toNat, BitVec.setWidth_eq]

section Case

variable {β : Type} (f : Except IllegalCause Instr → β)

/-- A case of the decode answers as a case of R74 does, if the conditions say the same and both branches agree. -/
theorem apply_case {p q : Prop} {_ : Decidable p} {_ : Decidable q} {r r' : Except IllegalCause Instr} {x x' : β}
    (hpq : p ↔ q) (hr : q → f r = x) (hr' : ¬ q → f r' = x') :
    f (if p then r else r') = if q then x else x' := by
  rw [apply_ite f]
  by_cases hq : q
  · rw [if_pos (hpq.2 hq), if_pos hq, hr hq]
  · rw [if_neg (hpq.not.2 hq), if_neg hq, hr' hq]

/-- A check of the decode, with the outcome that R74 gives when it fails. -/
theorem apply_check {p q : Prop} {_ : Decidable p} {_ : Decidable q} {r r' : Except IllegalCause Instr} {x' : β}
    (hpq : p ↔ q) (hr' : ¬ q → f r' = x') : f (if p then r else r') = if q then f r else x' :=
  apply_case f hpq (fun _ => rfl) hr'

/-- A DIM that is not reserved names one of three commands (R70). -/
theorem apply_decodeDim {w : Word} (h : w.toNat / 2 ^ 26 % 4 ≠ 3) (d24 d48 d256 : Instr) :
    f (decodeDim w d24 d48 d256) = if w.toNat / 2 ^ 26 % 4 = 0 then f (.ok d24)
      else if w.toNat / 2 ^ 26 % 4 = 1 then f (.ok d48) else f (.ok d256) := by
  have hcases : ∀ x : BitVec 2, x.toNat ≠ 3 → x = 0 ∨ x = 1 ∨ x = 2 := by decide
  rw [← dim_toNat] at h ⊢
  unfold decodeDim
  rcases hcases _ h with hd | hd | hd <;> rw [hd] <;> rfl

end Case

/-- Settles O4: R74's checks and then its case per OP, in its order, each with its condition on the word's fields read
as numbers and with the answer to its decode. -/
theorem commandWriteFollowsTheDecodeRule : Obligations.CommandWriteFollowsTheDecodeRule := by
  intro c w s
  have hop := op_eq_iff w
  have hdim := dim_eq_iff w
  have hfmt := fmt_eq_iff w
  have himm := imm_eq_iff w
  have hreserved : 8#4 ≤ Word.op w ↔ 8 ≤ w.toNat / 2 ^ 28 := by rw [BitVec.le_def, op_toNat]; rfl
  have husesDim := or_congr (hop 1) (or_congr (hop 4) (hop 6))
  have hbesideDim := or_congr (hfmt 0).not (himm 0).not
  have hbesideImm := or_congr (hdim 0).not (hfmt 0).not
  have hunused := or_congr (hdim 0).not hbesideDim
  rw [transact_write_cmd, writeCmd_eq_respond, ← commandInfo_eq_ofNat]
  refine if_congr Iff.rfl rfl ?_
  refine apply_check _ hreserved fun _ => ?_
  refine apply_check _ (and_congr_left' (hop 4)) fun _ => ?_
  refine apply_check _ (and_congr husesDim (hdim 3)) fun hdim3 => ?_
  refine apply_check _ (rz_eq_iff w 0).not fun _ => ?_
  refine apply_case _ (hop 0) (fun _ => apply_check _ hunused fun _ => rfl) fun _ => ?_
  refine apply_case _ (hop 1) (fun hop1 => apply_check _ hbesideDim fun _ =>
    apply_decodeDim _ (fun h3 => hdim3 ⟨.inl hop1, h3⟩) _ _ _) fun _ => ?_
  refine apply_case _ (hop 2) (fun _ => apply_check _ hbesideImm fun _ => by rw [imm_eq_ofNat]; rfl) fun _ => ?_
  refine apply_case _ (hop 3) (fun _ => apply_check _ hunused fun _ => rfl) fun _ => ?_
  refine apply_case _ (hop 4) (fun hop4 => apply_check _ hbesideDim fun _ =>
    apply_decodeDim _ (fun h3 => hdim3 ⟨.inr (.inl hop4), h3⟩) _ _ _) fun _ => ?_
  refine apply_case _ (hop 5) (fun _ => apply_check _ (or_congr (hdim 0).not (himm 0).not) fun _ =>
    apply_check _ (hfmt 0) fun _ => rfl) fun _ => ?_
  refine apply_case _ (hop 6) (fun _ => apply_check _ (himm 0).not fun _ =>
    apply_check _ (and_congr (hdim 0) (hfmt 0)) fun _ =>
    apply_check _ (and_congr (hdim 1) (hfmt 0)) fun _ =>
    apply_check _ (and_congr (hdim 2) (hfmt 1)) fun _ => rfl) fun _ => ?_
  exact apply_check _ hunused fun _ => rfl

end Sys2Proof.Machine
end

section
/-! The table load and the wait of the host's pseudo-instructions (spec/30_encoding.md R80), and the START that an
ENCODE begins with (spec/42_encode.md R97). -/

namespace Sys2Proof.Machine

open Sys2Proof

/-! ### LOADMAP (R80 to R83) -/

theorem serve_cons_of_next {cfg : Config} {x : HostTxn} {s t : State} (h : transact cfg x s = .next t)
    (xs : List HostTxn) : serve cfg (x :: xs) s = serve cfg xs t := by
  rw [serve, h]

/-- The host's write of a command outside ERROR has the command's effect and returns no value. -/
theorem transact_cmdTxn {c : Config} {i : Instr} {s : State} (hi : i.wellFormed c = true) (hs : s.seq ≠ .error) :
    transact c (cmdTxn i) s = .next (effect i (s.setReply none)) := by
  rw [cmdTxn, wrTxn, RegName.offset, transact_command s (decode_encode hi), exec_eq_command]
  exact command_eq _ _ hs

/-- The load's first command (R81). -/
theorem transact_mapbegin {c : Config} {b : Dim} {s : State} (hs : s.seq = .idle) (hb : s.loaded.get b = false) :
    transact c (cmdTxn (mapbeginOf b)) s = .next ((s.setReply none).beginLoad b) := by
  have hwf : (mapbeginOf b).wellFormed c = true := by cases b <;> rfl
  have heffect : effect (mapbeginOf b) = mapBegin (mapbeginOf b) b := by cases b <;> rfl
  rw [transact_cmdTxn hwf (by simp [hs]), heffect]
  rcases mapBegin_cases (mapbeginOf b) b (s.setReply none) with ⟨hne, -⟩ | ⟨-, hl, -⟩ | ⟨-, -, e⟩
  · exact absurd hs hne
  · cases hb.symm.trans hl
  · rw [e]

theorem transact_mapentry {c : Config} {v : Entry} {s : State} (hs : s.seq = .loading)
    (hl : s.lcnt.toNat < s.lbank.entries) :
    transact c (cmdTxn (.mapentry v)) s = .next ((s.setReply none).appendEntry v) := by
  rw [transact_cmdTxn rfl (by simp [hs])]
  rcases mapAppend_cases v (s.setReply none) with ⟨hne, -⟩ | ⟨-, hfull, -⟩ | ⟨-, -, e⟩
  · exact absurd hs hne
  · exact absurd hfull (Nat.ne_of_lt hl)
  · rw [effect, e]

theorem transact_mapend {c : Config} {s : State} (hs : s.seq = .loading) (hl : s.lcnt.toNat = s.lbank.entries) :
    transact c (cmdTxn .mapend) s = .next (s.setReply none).endLoad := by
  rw [transact_cmdTxn rfl (by simp [hs])]
  rcases mapEnd_cases (s.setReply none) with ⟨hne, -⟩ | ⟨-, hshort, -⟩ | ⟨-, hshort, -⟩ | ⟨-, -, e⟩
  · exact absurd hs hne
  · exact absurd hl hshort
  · exact absurd hl hshort
  · rw [effect, e]

theorem State.setReply_of_reply {s : State} {r : Option Word} (h : s.reply = r) : s.setReply r = s := by
  subst h; rfl

/-- The host's entries are served one after another as long as the table has room for them. -/
theorem serve_mapentries {c : Config} {ts : List Entry} {s : State} (hs : s.seq = .loading) (hr : s.reply = none)
    (hl : s.lcnt.toNat + ts.length ≤ s.lbank.entries) :
    serve c (ts.map fun t => cmdTxn (.mapentry t)) s = .next (ts.foldl State.appendEntry s) := by
  induction ts generalizing s with
  | nil => rfl
  | cons v ts ih =>
    rw [List.length_cons] at hl
    have hlt : s.lcnt.toNat < s.lbank.entries := by omega
    have hcount := count_up s.lcnt s.lbank hlt
    rw [List.map_cons, serve_cons_of_next (transact_mapentry hs hlt), State.setReply_of_reply hr, List.foldl_cons]
    exact ih hs hr (by rw [State.appendEntry_lcnt, State.appendEntry_lbank]; omega)

/-- Entries change the bank being loaded and the count, and nothing else of the block. -/
theorem foldl_appendEntry_frame (s : State) (ts : List Entry) : ts.foldl State.appendEntry s =
    { s with map := (ts.foldl State.appendEntry s).map, lcnt := (ts.foldl State.appendEntry s).lcnt } := by
  induction ts generalizing s with
  | nil => rfl
  | cons v ts ih => exact ih (s.appendEntry v)

theorem foldl_appendEntry_other (s : State) (ts : List Entry) {d : Dim} (hd : d ≠ s.lbank) :
    (ts.foldl State.appendEntry s).map.get d = s.map.get d := by
  induction ts generalizing s with
  | nil => rfl
  | cons v ts ih => rw [List.foldl_cons, ih (s.appendEntry v) hd, State.appendEntry_map, Banks.get_set_other _ _ hd]

/-- The bank after `ts`: the entries stand from the count on, in order, and those before it are as they were. -/
theorem foldl_appendEntry_bank {s : State} {ts : List Entry} (hl : s.lcnt.toNat + ts.length ≤ s.lbank.entries) :
    (ts.foldl State.appendEntry s).lcnt.toNat = s.lcnt.toNat + ts.length ∧
    (∀ i, i < s.lcnt.toNat →
      cellRead ((ts.foldl State.appendEntry s).map.get s.lbank) i = cellRead (s.map.get s.lbank) i) ∧
    ∀ i, (h : i < ts.length) →
      cellRead ((ts.foldl State.appendEntry s).map.get s.lbank) (s.lcnt.toNat + i) = some ts[i] := by
  induction ts generalizing s with
  | nil => exact ⟨rfl, fun _ _ => rfl, fun _ h => absurd h (Nat.not_lt_zero _)⟩
  | cons v ts ih =>
    rw [List.length_cons] at hl
    have hcount : (s.appendEntry v).lcnt.toNat = s.lcnt.toNat + 1 := count_up s.lcnt s.lbank (by omega)
    obtain ⟨hlcnt, hbefore, hfrom⟩ := ih (s := s.appendEntry v) (by rw [hcount, State.appendEntry_lbank]; omega)
    rw [hcount] at hlcnt hbefore hfrom
    simp only [State.appendEntry_lbank] at hbefore hfrom
    rw [List.foldl_cons]
    refine ⟨by rw [hlcnt, List.length_cons]; omega, fun i hi => ?_, fun i hi => ?_⟩
    · rw [hbefore i (by omega), cellRead_appendEntry, if_neg (by omega)]
    · cases i with
      | zero => rw [hbefore _ (by omega), cellRead_appendEntry, if_pos ⟨rfl, rfl⟩, List.getElem_cons_zero]
      | succ i =>
        rw [← Nat.add_assoc, Nat.add_right_comm, hfrom i (by simpa using hi), List.getElem_cons_succ]

/-- MAPBEGIN and the N(b) entries after it: the whole table stands in bank b, from index 0 on. -/
theorem serve_mapbegin_mapentries (c : Config) {b : Dim} {ts : List Entry} {s : State} (hlen : ts.length = b.entries)
    (hs : s.seq = .idle) (hb : s.loaded.get b = false) :
    ∃ u, serve c (cmdTxn (mapbeginOf b) :: ts.map fun t => cmdTxn (.mapentry t)) s = .next u ∧
      u = { s with
        map := u.map, lbank := b, lcnt := BitVec.ofNat 16 b.entries, seq := .loading, reply := none } ∧
      (∀ i, (h : i < ts.length) → u.mapEntry b i = ts[i]) ∧ ∀ d, d ≠ b → u.map.get d = s.map.get d := by
  have hzero : ((s.setReply none).beginLoad b).lcnt.toNat = 0 := rfl
  have hroom : ((s.setReply none).beginLoad b).lcnt.toNat + ts.length ≤ b.entries := by omega
  obtain ⟨hcount, -, hentries⟩ := foldl_appendEntry_bank hroom
  have hlcnt : (ts.foldl State.appendEntry ((s.setReply none).beginLoad b)).lcnt = BitVec.ofNat 16 b.entries := by
    rw [← hlen, ← Nat.zero_add ts.length, ← hzero, ← hcount, BitVec.ofNat_toNat, BitVec.setWidth_eq]
  refine ⟨ts.foldl State.appendEntry ((s.setReply none).beginLoad b), ?_, ?_, fun i hi => ?_, fun d hd => ?_⟩
  · rw [serve_cons_of_next (transact_mapbegin hs hb), serve_mapentries rfl rfl hroom]
  · rw [← hlcnt]
    exact foldl_appendEntry_frame _ ts
  · have hi' := hentries i hi
    rw [hzero, Nat.zero_add] at hi'
    exact congrArg (Option.getD · _) hi'
  · exact foldl_appendEntry_other _ ts hd

/-- Settles O24: the entries stand in the bank from index 0 on, and MAPEND finds all N(b) of them. -/
theorem loadmapLoadsTheTable : Obligations.LoadmapLoadsTheTable := by
  intro c b ts s hlen hs hb
  obtain ⟨u, hserve, hu, hentries, hother⟩ := serve_mapbegin_mapentries c hlen hs hb
  have hseq : u.seq = .loading := by rw [hu]
  have hlbank : u.lbank = b := by rw [hu]
  have hloaded : u.loaded = s.loaded := by rw [hu]
  have hreply : u.reply = none := by rw [hu]
  have hfull : u.lcnt.toNat = u.lbank.entries := by
    have hlcnt : u.lcnt = BitVec.ofNat 16 b.entries := by rw [hu]
    have := entries_le b
    rw [hlcnt, hlbank, BitVec.toNat_ofNat]
    omega
  refine ⟨u.endLoad, ?_, ?_, hentries, fun d hd => ⟨?_, hother d hd⟩, ?_⟩
  · rw [loadMapTxns, ← List.cons_append, serve_append c _ _ _ _ hserve,
      serve_cons_of_next (transact_mapend hseq hfull), State.setReply_of_reply hreply, serve]
  · rw [State.endLoad_loaded, hlbank, Banks.get_set_same]
  · rw [State.endLoad_loaded, hlbank, hloaded, Banks.get_set_other _ _ hd]
  · rw [hs]
    exact congrArg (fun v : State => { v with loaded := u.endLoad.loaded, seq := .idle }) hu

/-! ### WAITVALID (R80, R120) -/

/-- STATUS shows WAITVALID's two conditions (R35). -/
theorem waitDone_status (s : State) : waitDone s.status = true ↔ s.bvalid = true ∨ s.seq = .error := by
  obtain ⟨hseq, hbvalid, -⟩ := status_fields s
  rw [waitDone, hseq, hbvalid]
  cases s.bvalid <;> cases s.seq <;> decide

/-- One more read of STATUS: it ends the wait, or the wait goes on with the block as it was. -/
theorem waitValid_succ (c : Config) (n : Nat) (s : State) : waitValid c (n + 1) s =
    if waitDone s.status then some s.status else waitValid c n (s.setReply (some s.status)) := rfl

/-- Settles O51: what ends the wait is in the state, and no read changes it. -/
theorem waitvalidEndsAtOnceOrNever : Obligations.WaitvalidEndsAtOnceOrNever := by
  intro c s n
  refine ⟨fun h => ?_, fun hb he => ?_⟩
  · rw [waitValid_succ, if_pos ((waitDone_status s).2 h)]
  · induction n generalizing s with
    | zero => rfl
    | succ n ih =>
      have hnot : ¬ waitDone s.status = true := by
        rw [waitDone_status, hb]
        exact not_or.2 ⟨Bool.false_ne_true, he⟩
      rw [waitValid_succ, if_neg hnot]
      exact ih _ hb he

/-! ### START (R97) -/

theorem effect_startOf (b : Dim) : effect (startOf b) = startEncode (startOf b) b := by cases b <;> rfl

theorem sizeMatches_required (b : Dim) : sizeMatches b (BitVec.ofNat 32 (b.width * 2 ^ 16 + b.height)) = true := by
  cases b <;> decide

/-- Settles O29: the STATE, the size and the bank pass START's checks, and it empties the marks. -/
theorem startBeginsTheEncode : Obligations.StartBeginsTheEncode := by
  intro b s hs himg hb
  refine ⟨s.beginEncode b b.format, ?_, fun _ => rfl, rfl⟩
  rw [exec_eq_command, command_eq s _ (by simp [hs]), effect_startOf]
  rcases startEncode_cases (startOf b) b s with ⟨hne, -⟩ | ⟨-, hm, -⟩ | ⟨-, -, hl, -⟩ | ⟨-, -, -, e⟩
  · exact absurd hs hne
  · rw [himg, sizeMatches_required] at hm; cases hm
  · cases hb.symm.trans hl
  · rw [e]

end Sys2Proof.Machine
end

section
/-! The load's commands one by one (spec/40_map_load.md R81 to R84), and MAPVERIFY's and START's refusal of a bank that is
not loaded (R84, R97): each branch of a command's meaning, as the state that it answers. -/

namespace Sys2Proof.Machine

open Sys2Proof

/-! ### The commands of a bank (R70) -/

theorem effect_mapbeginOf (b : Dim) : effect (mapbeginOf b) = mapBegin (mapbeginOf b) b := by cases b <;> rfl

theorem effect_mapverifyOf (b : Dim) : effect (mapverifyOf b) = mapVerify (mapverifyOf b) b := by cases b <;> rfl

/-- Outside ERROR a command answers its effect (R106). -/
theorem exec_eq_next (i : Instr) {s : State} (h : s.seq ≠ .error) : exec i s = .next (effect i s) := by
  rw [exec_eq_command, command_eq s _ h]

theorem exec_of_idle (i : Instr) {s : State} (h : s.seq = .idle) : exec i s = .next (effect i s) :=
  exec_eq_next i (by simp [h])

theorem exec_of_loading (i : Instr) {s : State} (h : s.seq = .loading) : exec i s = .next (effect i s) :=
  exec_eq_next i (by simp [h])

/-! ### The values of an error record (R111, R113) -/

theorem sub_eq_ofNat (b : Dim) : b.sub = BitVec.ofNat 4 b.code.toNat := by cases b <;> rfl

/-- ERRINFO of ResourceError 3 is the bank's number. -/
theorem errInfo_info (b : Dim) : errInfo 0 b.info = BitVec.ofNat 32 b.code.toNat := by cases b <;> rfl

/-- ERRINFO of MapImmutable is MAPBEGIN's word, whose lower half is zero: OP 1 and the bank in DIM. -/
theorem commandInfo_mapbeginOf (b : Dim) :
    commandInfo (encode (mapbeginOf b)) = BitVec.ofNat 32 (0x10000000 + b.code.toNat * 2 ^ 26) := by
  cases b <;> rfl

/-- An ERRINFO with no DEST is its XIDX. -/
theorem errInfo_zero (x : BitVec 16) : errInfo 0 x = x.setWidth 32 := by
  apply BitVec.eq_of_toNat_eq
  rw [errInfo, append_toNat, BitVec.toNat_setWidth_of_le (by decide)]
  simp

/-! ### MAPBEGIN (R81) -/

theorem mapBegin_unloaded (i : Instr) {b : Dim} {s : State} (hs : s.seq = .idle) (hb : s.loaded.get b = false) :
    mapBegin i b s = s.beginLoad b := by
  simpa [hs, hb] using mapBegin_cases i b s

theorem mapBegin_loaded (i : Instr) {b : Dim} {s : State} (hs : s.seq = .idle) (hb : s.loaded.get b = true) :
    mapBegin i b s = s.raiseError .mapImmutable b.sub (commandInfo (encode i)) := by
  simpa [hs, hb] using mapBegin_cases i b s

/-- Settles O15: IDLE and the clear LOADED bit pass both checks. -/
theorem mapbeginBeginsTheLoad : Obligations.MapbeginBeginsTheLoad := by
  intro b s hs hb
  rw [exec_of_idle _ hs, effect_mapbeginOf, mapBegin_unloaded _ hs hb]
  rfl

/-- Settles O16: the second check fails, with the bank and MAPBEGIN's own word in the record. -/
theorem mapbeginOfALoadedBankIsMapImmutable : Obligations.MapbeginOfALoadedBankIsMapImmutable := by
  intro b s hs hb
  rw [exec_of_idle _ hs, effect_mapbeginOf, mapBegin_loaded _ hs hb, sub_eq_ofNat, commandInfo_mapbeginOf]
  rfl

/-! ### MAPENTRY (R82) -/

theorem mapAppend_room (v : Entry) {s : State} (hs : s.seq = .loading) (hl : s.lcnt.toNat ≠ s.lbank.entries) :
    mapAppend v s = s.appendEntry v := by
  simpa [hs, hl] using mapAppend_cases v s

theorem mapAppend_full (v : Entry) {s : State} (hs : s.seq = .loading) (hl : s.lcnt.toNat = s.lbank.entries) :
    mapAppend v s = s.raiseError .resourceError 2 (errInfo v s.lcnt) := by
  simpa [hs, hl] using mapAppend_cases v s

theorem mapEntry_of_cellRead {s : State} {b : Dim} {i : Nat} {v : Entry} (h : cellRead (s.map.get b) i = some v) :
    s.mapEntry b i = v := by
  rw [State.mapEntry, h, Option.getD_some]

/-- Settles O17: the entry is written at the count, and a count below N(LBANK) does not wrap. -/
theorem mapentryStoresTheEntry : Obligations.MapentryStoresTheEntry := by
  intro v s hs hl
  refine ⟨s.appendEntry v, ?_, mapEntry_of_cellRead ?_, count_up _ _ hl, fun b i hne => ?_, rfl⟩
  · rw [exec_of_loading _ hs, effect, mapAppend_room v hs (Nat.ne_of_lt hl)]
  · rw [cellRead_appendEntry, if_pos ⟨rfl, rfl⟩]
  · rw [cellRead_appendEntry, if_neg fun hat => hne (Prod.ext hat.1 hat.2)]

/-- Settles O18: the table's length is checked before the store. -/
theorem mapentryBeyondTheTableIsResourceError : Obligations.MapentryBeyondTheTableIsResourceError := by
  intro v s hs hl
  rw [exec_of_loading _ hs, effect, mapAppend_full v hs hl]
  rfl

/-! ### MAPEND (R83) -/

theorem mapEnd_complete {s : State} (hs : s.seq = .loading) (hl : s.lcnt.toNat = s.lbank.entries) :
    mapEnd s = s.endLoad := by
  simpa [hs, hl] using mapEnd_cases s

/-- A load of the wrong length: missing if nothing came, truncated otherwise. -/
theorem mapEnd_short {s : State} (hs : s.seq = .loading) (hl : s.lcnt.toNat ≠ s.lbank.entries) :
    mapEnd s = s.raiseError .resourceError (if s.lcnt = 0 then 0 else 1) (errInfo 0 s.lcnt) := by
  rcases mapEnd_cases s with ⟨hne, -⟩ | ⟨-, -, hzero, e⟩ | ⟨-, -, hsome, e⟩ | ⟨-, hfull, -⟩
  · exact absurd hs hne
  · rw [e, if_pos hzero]
  · rw [e, if_neg hsome]
  · exact absurd hfull hl

/-- Settles O19: the count is the table's length, and MAPEND sets LOADED at LBANK only. -/
theorem mapendCompletesTheLoad : Obligations.MapendCompletesTheLoad := by
  intro s hs hl
  refine ⟨s.endLoad, ?_, Banks.get_set_same _ _ _, fun b hb => Banks.get_set_other _ _ hb, rfl⟩
  rw [exec_of_loading _ hs, effect, mapEnd_complete hs hl]

/-- Settles O20: the length check fails, and its sub-cause is chosen by the count. -/
theorem mapendOfAShortLoadIsResourceError : Obligations.MapendOfAShortLoadIsResourceError := by
  intro s hs hl
  rw [exec_of_loading _ hs, effect, mapEnd_short hs hl, errInfo_zero]
  rfl

/-! ### MAPVERIFY (R84) and a bank that is not loaded (R84, R97) -/

theorem mapVerify_loaded (i : Instr) {b : Dim} {s : State} (hs : s.seq = .idle) (hb : s.loaded.get b = true) :
    mapVerify i b s = s.recordVerify b (s.tableIsBijection b) := by
  simpa [hs, hb] using mapVerify_cases i b s

theorem mapVerify_unloaded (i : Instr) {b : Dim} {s : State} (hs : s.seq = .idle) (hb : s.loaded.get b = false) :
    mapVerify i b s = s.raiseError .resourceError 3 (errInfo 0 b.info) := by
  simpa [hs, hb] using mapVerify_cases i b s

theorem startEncode_unloaded (i : Instr) {b : Dim} {s : State} (hs : s.seq = .idle)
    (hm : sizeMatches b s.imgdim = true) (hb : s.loaded.get b = false) :
    startEncode i b s = s.raiseError .resourceError 3 (errInfo 0 b.info) := by
  simpa [hs, hm, hb] using startEncode_cases i b s

/-- R86's bijection is that every destination offset has exactly one source index. -/
theorem bijective_iff_existsUnique (s : State) (b : Dim) :
    s.Bijective b ↔ ∀ d, d < b.entries → ∃! x, x < b.entries ∧ (s.mapEntry b x).toNat = d := by
  simp only [State.Bijective, ExistsUnique, and_assoc, and_imp]

/-- Settles O21: `ok` is the check by counting, which `tableIsBijection_iff` ties to R86's bijection. -/
theorem mapverifyReportsWhetherTheTableIsABijection : Obligations.MapverifyReportsWhetherTheTableIsABijection := by
  intro b s hs hb
  refine ⟨s.tableIsBijection b, ?_, (tableIsBijection_iff s b).trans (bijective_iff_existsUnique s b)⟩
  rw [exec_of_idle _ hs, effect_mapverifyOf, mapVerify_loaded _ hs hb]
  rfl

/-- Settles O22: IDLE, and for START the required size, pass the checks that stand before the LOADED bit's. -/
theorem anUnloadedBankIsResourceError : Obligations.AnUnloadedBankIsResourceError := by
  intro b s hs hb
  refine ⟨?_, fun himg => ?_⟩
  · rw [exec_of_idle _ hs, effect_mapverifyOf, mapVerify_unloaded _ hs hb, errInfo_info]
    rfl
  · have hm : sizeMatches b s.imgdim = true := by rw [himg, sizeMatches_required]
    rw [exec_of_idle _ hs, effect_startOf, startEncode_unloaded _ hs hm hb, errInfo_info]
    rfl

end Sys2Proof.Machine
end

section
/-! What does not disturb a run (spec/70_reset_and_hazards.md R136, R137, R139): the commands that leave a valid blob
readable, and the host's accesses that leave an unfinished load or encode where it is. -/

namespace Sys2Proof.Machine

open Sys2Proof

/-! ### A valid blob (R136) -/

/-- What a window read looks at: BVALID, the blob's length, the marks and the bytes. -/
theorem hostRead_windowOffset_congr {s t : State} (hb : t.bvalid = s.bvalid) (hd : t.adim = s.adim)
    (hw : t.wr = s.wr) (ho : t.out = s.out) (o : BitVec 16) (w : Width) :
    hostRead (windowOffset o) w t = hostRead (windowOffset o) w s := by
  have hmarked : ∀ p, t.marked p = s.marked p := fun p => by rw [State.marked, hw, State.marked]
  have hout : ∀ p, t.outByte p = s.outByte p := fun p => by rw [State.outByte, ho, State.outByte]
  have hadm : ∀ p, t.admittedByte p = s.admittedByte p := fun p => by
    simp only [State.admittedByte, hmarked, hout, hd]
  simp only [hostRead, readWindow, inWindow_windowOffset, if_true, hb, windowBytes_congr s t hadm]

/-- A read that answers v leaves it in the reply. -/
theorem transact_read_value_iff (c : Config) (a : Offset) (w : Width) (s : State) (v : Word) :
    transact c (.read a w) s = .next { s with reply := some v } ↔ hostRead a w s = .ok v := by
  rw [transact_read_next_iff]
  refine ⟨?_, fun h => ⟨v, h, rfl⟩⟩
  rintro ⟨v', hv', he⟩
  have hreply : some v = some v' := congrArg State.reply he
  rw [hv', Option.some.inj hreply]

/-- BVALID and ADIM are changed only by START, PUSH and error entry. -/
theorem EffectOf.blob {s t : State} {i : Instr} (h : EffectOf s i t) (hi : i ≠ .push) (hs : ∀ b, i ≠ startOf b)
    (ht : t.seq ≠ .error) : t.bvalid = s.bvalid ∧ t.adim = s.adim := by
  cases h with
  | raise => exact absurd rfl ht
  | lastPixel | pixel => exact absurd rfl hi
  | beginEncode _ b hb => exact absurd (eq_startOf hb) (hs b)
  | _ => exact ⟨rfl, rfl⟩

/-- Settles O37: the command writes nothing that a window read looks at, so each read answers as before it. -/
theorem aValidBlobStaysReadable : Obligations.AValidBlobStaysReadable := by
  intro i s t hi hstart hb hs ht hseq
  rw [exec_eq_next i hs] at ht
  cases ht
  have he := effect_cases i s
  obtain ⟨hbvalid, hadim⟩ := he.blob hi hstart hseq
  refine ⟨hbvalid.trans hb, hadim, fun c o w => ?_⟩
  have hread := hostRead_windowOffset_congr hbvalid hadim (he.wr hi hstart) (he.out hi) o w
  simp only [transact_read_value_iff, transact_read_fault_iff, hread]
  exact ⟨fun _ => id, fun _ => id⟩

/-! ### The host's liberties (R137) -/

/-- R137's list: reads, writes of PIX and IMGDIM, QUANT and NOP. -/
def Liberty (x : HostTxn) : Prop :=
  (∃ a w, x = .read a w) ∨ (∃ w v, x = .write 0x04 w v) ∨ (∃ w v, x = .write 0x08 w v) ∨
    (∃ f, x = .write 0x00 .w32 (encode (quantOf f))) ∨ x = .write 0x00 .w32 (encode .nop)

/-- The state with what the liberties may write: PIX, IMGDIM, QOUT and the reply. -/
def State.afterLiberties (s : State) (p d : Word) (q : QPixel) (r : Option Word) : State :=
  { s with pix := p, imgdim := d, qout := q, reply := r }

theorem effect_quantOf (f : Format) : effect (quantOf f) = quantPixel f := by cases f <;> rfl

/-- The CMD words among the liberties are those of QUANT and NOP. -/
theorem Liberty.word {w : Word} (h : Liberty (.write 0x00 .w32 w)) :
    (∃ f, w = encode (quantOf f)) ∨ w = encode .nop := by
  simpa [Liberty] using h

/-- So each of them decodes, to QUANT or NOP. -/
theorem Liberty.decodes {w : Word} (h : Liberty (.write 0x00 .w32 w)) (c : Config) :
    ∃ i, decode c.hasVerify w = .ok i ∧ ((∃ f, i = quantOf f) ∨ i = .nop) := by
  rcases h.word with ⟨f, rfl⟩ | rfl
  · exact ⟨quantOf f, decode_encode (by cases f <;> rfl), .inl ⟨f, rfl⟩⟩
  · exact ⟨.nop, decode_encode rfl, .inr rfl⟩

/-- A liberty that answers next writes PIX, IMGDIM, QOUT and the reply at most. -/
theorem transact_liberty {c : Config} {x : HostTxn} {s t : State} (hx : Liberty x) (ht : transact c x s = .next t) :
    ∃ p d q r, t = s.afterLiberties p d q r := by
  cases transact_cases c x s t ht with
  | read | ignored | pix | imgdim => exact ⟨_, _, _, _, rfl⟩
  | reset => simp [Liberty] at hx
  | illegal w e _ hd =>
    obtain ⟨i, hi, -⟩ := hx.decodes c
    cases hd.symm.trans hi
  | command w i _ hd =>
    obtain ⟨j, hj, hquiet⟩ := hx.decodes c
    cases hd.symm.trans hj
    rcases hquiet with ⟨f, rfl⟩ | rfl
    · rw [effect_quantOf]
      exact ⟨_, _, _, _, rfl⟩
    · exact ⟨_, _, _, _, rfl⟩

/-- A run whose every transaction answers next, taken apart at its first. -/
theorem exists_of_serve_cons_next {c : Config} {x : HostTxn} {xs : List HostTxn} {s t : State}
    (h : serve c (x :: xs) s = .next t) : ∃ u, transact c x s = .next u ∧ serve c xs u = .next t := by
  rw [serve] at h
  cases hx : transact c x s with
  | next u => rw [hx] at h; exact ⟨u, rfl, h⟩
  | fault f => rw [hx] at h; cases h
  | refused r => rw [hx] at h; cases h

/-- Nor do any number of liberties write more. -/
theorem serve_liberties {c : Config} {xs : List HostTxn} {s t : State} (hxs : ∀ x ∈ xs, Liberty x)
    (ht : serve c xs s = .next t) : ∃ p d q r, t = s.afterLiberties p d q r := by
  induction xs generalizing s with
  | nil =>
    cases ht
    exact ⟨_, _, _, _, rfl⟩
  | cons x xs ih =>
    obtain ⟨hx, hrest⟩ := List.forall_mem_cons.1 hxs
    obtain ⟨u, hu, hserve⟩ := exists_of_serve_cons_next ht
    obtain ⟨p, d, q, r, rfl⟩ := transact_liberty hx hu
    obtain ⟨p', d', q', r', rfl⟩ := ih hrest hserve
    exact ⟨p', d', q', r', rfl⟩

/-! ### Unfinished runs (R139) -/

theorem State.unfinished.not_succeeded {s : State} (h : s.unfinished) : ¬ s.succeeded := by
  rintro ⟨-, hidle⟩
  rcases h with h | h <;> cases h.symm.trans hidle

/-- With nothing issued every step keeps the state, so every run does (R127). -/
theorem run_of_inbox_nil {s : State} (h : s.inbox = []) (k : Nat) : Sys2Proof.core.run k s = .next s := by
  have hstep : step s = .next s := by rw [step, serveNext, h]
  induction k with
  | zero => rfl
  | succ k ih => rw [run_next Sys2Proof.core k s s hstep, ih]

/-- Settles O60: the liberties write none of STATE, BVALID, LCNT and IDX, and STATE alone says that a run is
unfinished. -/
theorem anUnfinishedRunIsStuckAndNoSuccess : Obligations.AnUnfinishedRunIsStuckAndNoSuccess := by
  intro s hs
  refine ⟨hs.not_succeeded, State.Inv.bvalid_encoding, run_of_inbox_nil, fun c xs t hxs ht => ?_⟩
  obtain ⟨p, d, q, r, rfl⟩ := serve_liberties hxs ht
  have hs' : (s.afterLiberties p d q r).unfinished := hs
  exact ⟨rfl, rfl, rfl, rfl, hs'.not_succeeded⟩

end Sys2Proof.Machine
end

section
/-! The pixel quantizer (spec/41_quantize.md R87 to R96): its bytes as numbers, its words as fields of the pixel, which
bits it drops and which words it reaches, and what QUANT does. -/

namespace Sys2Proof.Machine

open Sys2Proof

/-! ### The channels and the bytes as numbers (R87 to R91) -/

/-- A field of bits as a number. -/
theorem toNat_extractLsb'_eq_div_mod {w : Nat} (x : BitVec w) (k n : Nat) :
    (x.extractLsb' k n).toNat = x.toNat / 2 ^ k % 2 ^ n := by
  rw [BitVec.extractLsb'_toNat, Nat.shiftRight_eq_div_pow]

theorem chanR_toNat (p : Word) : (chanR p).toNat = p.toNat / 2 ^ 24 := by
  rw [chanR, toNat_extractLsb'_eq_div_mod]
  omega

theorem chanG_toNat (p : Word) : (chanG p).toNat = p.toNat / 2 ^ 16 % 256 :=
  toNat_extractLsb'_eq_div_mod p 16 8

theorem chanB_toNat (p : Word) : (chanB p).toNat = p.toNat / 2 ^ 8 % 256 :=
  toNat_extractLsb'_eq_div_mod p 8 8

theorem chanA_toNat (p : Word) : (chanA p).toNat = p.toNat % 256 := by
  rw [chanA, toNat_extractLsb'_eq_div_mod]
  omega

/-- A byte packed from a field shifted up and a low field, as a number, when the shift loses no bit. -/
theorem toNat_shiftLeft_or {x : Byte} (y : Byte) {k : Nat} (h : x.toNat <<< k < 2 ^ 8) :
    (x <<< k ||| y).toNat = x.toNat <<< k ||| y.toNat := by
  rw [BitVec.toNat_or, BitVec.toNat_shiftLeft, Nat.mod_eq_of_lt h]

/-- A field shifted down and back up loses no bit. -/
theorem ushiftRight_shiftLeft_lt (x : Byte) (k : Nat) : (x >>> k).toNat <<< k < 2 ^ 8 := by
  rw [BitVec.toNat_ushiftRight, Nat.shiftRight_eq_div_pow, Nat.shiftLeft_eq]
  exact (Nat.div_mul_le_self _ _).trans_lt x.isLt

/-- Nor do three bits shifted up by five. -/
theorem and_seven_shiftLeft_lt (x : Byte) : (x &&& 7#8).toNat <<< 5 < 2 ^ 8 := by
  have hle : x.toNat &&& 7 ≤ 7 := Nat.and_le_right
  rw [BitVec.toNat_and, Nat.shiftLeft_eq]
  exact (Nat.mul_le_mul_right _ hle).trans_lt (by decide)

theorem byte0Rgb565_toNat (p : Word) : (byte0Rgb565 p).toNat =
    ((p.toNat / 2 ^ 16 % 256) >>> 2 &&& 7) <<< 5 ||| (p.toNat / 2 ^ 8 % 256) >>> 3 := by
  rw [byte0Rgb565, toNat_shiftLeft_or _ (and_seven_shiftLeft_lt _)]
  simp only [BitVec.toNat_and, BitVec.toNat_ushiftRight, chanG_toNat, chanB_toNat]
  rfl

theorem byte1Rgb565_toNat (p : Word) : (byte1Rgb565 p).toNat =
    (p.toNat / 2 ^ 24) >>> 3 <<< 3 ||| (p.toNat / 2 ^ 16 % 256) >>> 2 >>> 3 := by
  rw [byte1Rgb565, toNat_shiftLeft_or _ (ushiftRight_shiftLeft_lt _ _)]
  simp only [BitVec.toNat_ushiftRight, chanR_toNat, chanG_toNat]

theorem byte0Rgba4444_toNat (p : Word) : (byte0Rgba4444 p).toNat =
    (p.toNat / 2 ^ 8 % 256) >>> 4 <<< 4 ||| (p.toNat % 256) >>> 4 := by
  rw [byte0Rgba4444, toNat_shiftLeft_or _ (ushiftRight_shiftLeft_lt _ _)]
  simp only [BitVec.toNat_ushiftRight, chanB_toNat, chanA_toNat]

theorem byte1Rgba4444_toNat (p : Word) : (byte1Rgba4444 p).toNat =
    (p.toNat / 2 ^ 24) >>> 4 <<< 4 ||| (p.toNat / 2 ^ 16 % 256) >>> 4 := by
  rw [byte1Rgba4444, toNat_shiftLeft_or _ (ushiftRight_shiftLeft_lt _ _)]
  simp only [BitVec.toNat_ushiftRight, chanR_toNat, chanG_toNat]

/-- Settles O27: each formula is the number of a byte of the bit-packer, so it is below 256. -/
theorem quantizedBytesFollowTheFormulas : Obligations.QuantizedBytesFollowTheFormulas := by
  intro p
  simp only [← byte0Rgb565_toNat, ← byte1Rgb565_toNat, ← byte0Rgba4444_toNat, ← byte1Rgba4444_toNat]
  exact ⟨(byte0Rgb565 p).isLt, (byte1Rgb565 p).isLt, (byte0Rgba4444 p).isLt, (byte1Rgba4444 p).isLt,
    append_toNat _ _, append_toNat _ _⟩

/-! ### The words as fields of the pixel (R92, R93) -/

/-- What is packed as a number from two fields is their concatenation. -/
theorem eq_append_of_toNat {m n a b : Nat} {x : BitVec (m + n)} {hi : BitVec m} {lo : BitVec n}
    (hx : x.toNat = a <<< n ||| b) (ha : hi.toNat = a) (hb : lo.toNat = b) : x = hi ++ lo :=
  BitVec.eq_of_toNat_eq (by rw [BitVec.toNat_append, hx, ha, hb])

/-- Byte1 of RGB565 is R[7:3] : G[7:5]. -/
theorem byte1Rgb565_eq (p : Word) : byte1Rgb565 p = p.extractLsb' 27 5 ++ p.extractLsb' 21 3 := by
  refine eq_append_of_toNat (byte1Rgb565_toNat p) ?_ ?_ <;>
    simp only [toNat_extractLsb'_eq_div_mod, Nat.shiftRight_eq_div_pow] <;> omega

/-- Byte0 of RGB565 is G[4:2] : B[7:3]. -/
theorem byte0Rgb565_eq (p : Word) : byte0Rgb565 p = p.extractLsb' 18 3 ++ p.extractLsb' 11 5 := by
  have hseven (g : Nat) : g &&& 7 = g % 8 := Nat.and_two_pow_sub_one_eq_mod g 3
  refine eq_append_of_toNat (byte0Rgb565_toNat p) ?_ ?_ <;>
    simp only [toNat_extractLsb'_eq_div_mod, Nat.shiftRight_eq_div_pow, hseven] <;> omega

/-- Byte1 of RGBA4444 is R[7:4] : G[7:4]. -/
theorem byte1Rgba4444_eq (p : Word) : byte1Rgba4444 p = p.extractLsb' 28 4 ++ p.extractLsb' 20 4 := by
  refine eq_append_of_toNat (byte1Rgba4444_toNat p) ?_ ?_ <;>
    simp only [toNat_extractLsb'_eq_div_mod, Nat.shiftRight_eq_div_pow] <;> omega

/-- Byte0 of RGBA4444 is B[7:4] : A[7:4]. -/
theorem byte0Rgba4444_eq (p : Word) : byte0Rgba4444 p = p.extractLsb' 12 4 ++ p.extractLsb' 4 4 := by
  refine eq_append_of_toNat (byte0Rgba4444_toNat p) ?_ ?_ <;>
    simp only [toNat_extractLsb'_eq_div_mod, Nat.shiftRight_eq_div_pow] <;> omega

/-- Q565 is R[7:3] : G[7:2] : B[7:3]; the two bytes share G's field between them. -/
theorem quantize_rgb565 (p : Word) : quantize .rgb565 p =
    p.extractLsb' 27 5 ++ p.extractLsb' 18 6 ++ p.extractLsb' 11 5 := by
  rw [quantize, byte1Rgb565_eq, byte0Rgb565_eq]
  apply BitVec.eq_of_toNat_eq
  simp only [append_toNat, toNat_extractLsb'_eq_div_mod]
  omega

/-- Q4444 is R[7:4] : G[7:4] : B[7:4] : A[7:4]. -/
theorem quantize_rgba4444 (p : Word) : quantize .rgba4444 p =
    p.extractLsb' 28 4 ++ p.extractLsb' 20 4 ++ p.extractLsb' 12 4 ++ p.extractLsb' 4 4 := by
  rw [quantize, byte1Rgba4444_eq, byte0Rgba4444_eq]
  apply BitVec.eq_of_toNat_eq
  simp only [append_toNat]
  omega

/-- A mask of ones over a field keeps the field. -/
theorem extractLsb'_and_of_allOnes {p m : Word} {k n : Nat} (h : m.extractLsb' k n = BitVec.allOnes n) :
    (p &&& m).extractLsb' k n = p.extractLsb' k n := by
  rw [BitVec.extractLsb'_and, h, BitVec.and_allOnes]

/-- Q565 depends only on R[7:3], G[7:2] and B[7:3]. -/
theorem quantize_rgb565_and_mask (p : Word) : quantize .rgb565 (p &&& 0xF8FCF800) = quantize .rgb565 p := by
  rw [quantize_rgb565, quantize_rgb565, extractLsb'_and_of_allOnes (by decide),
    extractLsb'_and_of_allOnes (by decide), extractLsb'_and_of_allOnes (by decide)]

/-- Q4444 depends only on the upper half of each channel. -/
theorem quantize_rgba4444_and_mask (p : Word) : quantize .rgba4444 (p &&& 0xF0F0F0F0) = quantize .rgba4444 p := by
  rw [quantize_rgba4444, quantize_rgba4444, extractLsb'_and_of_allOnes (by decide),
    extractLsb'_and_of_allOnes (by decide), extractLsb'_and_of_allOnes (by decide),
    extractLsb'_and_of_allOnes (by decide)]

/-! ### A pixel for every word (R96) -/

/-- A pixel with the given reduced channels and zeros in the bits RGB565 drops. -/
def pixelRgb565 (r : BitVec 5) (g : BitVec 6) (b : BitVec 5) : Word := r ++ 0#3 ++ g ++ 0#2 ++ b ++ 0#11

/-- A pixel with the given reduced channels and zeros in the bits RGBA4444 drops. -/
def pixelRgba4444 (r g b a : BitVec 4) : Word := r ++ 0#4 ++ g ++ 0#4 ++ b ++ 0#4 ++ a ++ 0#4

theorem quantize_pixelRgb565 (r : BitVec 5) (g : BitVec 6) (b : BitVec 5) :
    quantize .rgb565 (pixelRgb565 r g b) = r ++ g ++ b := by
  rw [quantize_rgb565]
  apply BitVec.eq_of_toNat_eq
  simp only [pixelRgb565, append_toNat, toNat_extractLsb'_eq_div_mod, BitVec.toNat_ofNat]
  omega

theorem quantize_pixelRgba4444 (r g b a : BitVec 4) :
    quantize .rgba4444 (pixelRgba4444 r g b a) = r ++ g ++ b ++ a := by
  rw [quantize_rgba4444]
  apply BitVec.eq_of_toNat_eq
  simp only [pixelRgba4444, append_toNat, toNat_extractLsb'_eq_div_mod, BitVec.toNat_ofNat]
  omega

/-- The pixel is built from the word's own fields. -/
theorem quantize_surjective (f : Format) : Function.Surjective (quantize f) := by
  intro q
  cases f with
  | rgb565 =>
    refine ⟨pixelRgb565 (q.extractLsb' 11 5) (q.extractLsb' 5 6) (q.extractLsb' 0 5), BitVec.eq_of_toNat_eq ?_⟩
    simp only [quantize_pixelRgb565, append_toNat, toNat_extractLsb'_eq_div_mod]
    omega
  | rgba4444 =>
    refine ⟨pixelRgba4444 (q.extractLsb' 12 4) (q.extractLsb' 8 4) (q.extractLsb' 4 4) (q.extractLsb' 0 4),
      BitVec.eq_of_toNat_eq ?_⟩
    simp only [quantize_pixelRgba4444, append_toNat, toNat_extractLsb'_eq_div_mod]
    omega

/-- Settles O28: masking the dropped bits leaves the word, and every word is that of some pixel. -/
theorem quantizerDropsLowBitsAndIsSurjective : Obligations.QuantizerDropsLowBitsAndIsSurjective := by
  refine ⟨fun p p' h => ?_, fun p p' h => ?_, quantize_surjective⟩
  · rw [← quantize_rgb565_and_mask p, h, quantize_rgb565_and_mask]
  · rw [← quantize_rgba4444_and_mask p, h, quantize_rgba4444_and_mask]

/-! ### QUANT (R94, R95) -/

/-- QUANT outside ERROR writes QOUT and nothing else. -/
theorem exec_quantOf (f : Format) {s : State} (hs : s.seq ≠ .error) :
    exec (quantOf f) s = .next { s with qout := quantize f s.pix } := by
  rw [exec_eq_next _ hs, effect_quantOf]
  rfl

/-- Settles O25: Q565 as fields of PIX. -/
theorem quantRgb565WritesQout : Obligations.QuantRgb565WritesQout := by
  intro s hs
  rw [← quantize_rgb565]
  exact exec_quantOf .rgb565 hs

/-- Settles O26: Q4444 as fields of PIX. -/
theorem quantRgba4444WritesQout : Obligations.QuantRgba4444WritesQout := by
  intro s hs
  rw [← quantize_rgba4444]
  exact exec_quantOf .rgba4444 hs

end Sys2Proof.Machine
end

section
/-! Encode (spec/42_encode.md R97 to R104): what one PUSH does, and what a whole ENCODE leaves in the blob. -/

namespace Sys2Proof.Machine

open Sys2Proof

/-! ### A pixel in the blob (R99) -/

/-- The two bytes of destination pixel d are those of the quantized pixel q, low byte first. -/
def State.PixelAt (s : State) (d : Nat) (q : QPixel) : Prop :=
  s.outByte (2 * d) = some (q.extractLsb' 0 8) ∧ s.outByte (2 * d + 1) = some (q.extractLsb' 8 8)

theorem putPixel_pixelAt (s : State) (d : Entry) (q : QPixel) : (s.putPixel d q).PixelAt d.toNat q := by
  simp [State.PixelAt, outByte_putPixel, destByte0, destByte1, qByte0, qByte1]

theorem putPixel_outByte_other {s : State} {d : Entry} (q : QPixel) {o : Nat} (h : o / 2 ≠ d.toNat) :
    (s.putPixel d q).outByte o = s.outByte o := by
  have h0 : o ≠ destByte0 d := by unfold destByte0; omega
  have h1 : o ≠ destByte1 d := by unfold destByte1; omega
  rw [outByte_putPixel, if_neg h1, if_neg h0]

theorem putPixel_marked_other {s : State} {d : Entry} (q : QPixel) {o : Nat} (h : o / 2 ≠ d.toNat) :
    (s.putPixel d q).marked o = s.marked o :=
  Bool.eq_iff_iff.2 ((marked_putPixel s d q o).trans (or_iff_right h))

/-- A write of one destination pixel leaves the others where they are. -/
theorem State.PixelAt.putPixel_other {s : State} {e : Nat} {r : QPixel} (h : s.PixelAt e r) {d : Entry}
    (hd : d.toNat ≠ e) (q : QPixel) : (s.putPixel d q).PixelAt e r := by
  unfold State.PixelAt at *
  rwa [putPixel_outByte_other q (by omega), putPixel_outByte_other q (by omega)]

/-- All that a PUSH in range does to OUT and WR: the pixel's two bytes and marks, and nothing at any other byte. -/
theorem putPixel_memories (s : State) (d : Entry) (q : QPixel) :
    (s.putPixel d q).PixelAt d.toNat q ∧
    (s.putPixel d q).marked (2 * d.toNat) = true ∧ (s.putPixel d q).marked (2 * d.toNat + 1) = true ∧
    ∀ o, o ≠ 2 * d.toNat → o ≠ 2 * d.toNat + 1 →
      (s.putPixel d q).outByte o = s.outByte o ∧ (s.putPixel d q).marked o = s.marked o := by
  refine ⟨putPixel_pixelAt s d q, (marked_putPixel s d q _).2 (.inl (by omega)),
    (marked_putPixel s d q _).2 (.inl (by omega)), fun o h0 h1 => ?_⟩
  have ho : o / 2 ≠ d.toNat := by omega
  exact ⟨putPixel_outByte_other q ho, putPixel_marked_other q ho⟩

/-! ### PUSH (R98 to R100, R104) -/

theorem pushPixel_next {s : State} (hs : s.seq = .encoding) (hd : s.nextDest.toNat < s.adim.entries)
    (hx : s.idx.toNat + 1 ≠ s.adim.entries) : pushPixel s = s.putPixel s.nextDest s.nextPixel := by
  simpa [hs, hd, hx, Nat.not_le.2 hd] using pushPixel_cases s

theorem pushPixel_last {s : State} (hs : s.seq = .encoding) (hd : s.nextDest.toNat < s.adim.entries)
    (hx : s.idx.toNat + 1 = s.adim.entries) :
    pushPixel s = (s.putPixel s.nextDest s.nextPixel).finishEncode := by
  simpa [hs, hd, hx, Nat.not_le.2 hd] using pushPixel_cases s

theorem pushPixel_outOfRange {s : State} (hs : s.seq = .encoding) (hd : s.adim.entries ≤ s.nextDest.toNat) :
    pushPixel s = s.raiseError .destOutOfRange s.adim.sub (errInfo s.nextDest s.idx) := by
  simpa [hs, hd, Nat.not_lt.2 hd] using pushPixel_cases s

theorem exec_push_of_encoding {s : State} (hs : s.seq = .encoding) : exec .push s = .next (pushPixel s) :=
  exec_eq_next .push (by simp [hs])

/-- Settles O33: the range check fails before anything of the pixel is written. -/
theorem pushOfAnEntryOutOfRangeIsDestOutOfRange : Obligations.PushOfAnEntryOutOfRangeIsDestOutOfRange := by
  intro s hs hd
  rw [exec_push_of_encoding hs, pushPixel_outOfRange hs hd, sub_eq_ofNat]
  rfl

/-- Settles O31: the state after the pixel's write, whose frame is its definition. -/
theorem pushWritesThePixelAtItsDestination : Obligations.PushWritesThePixelAtItsDestination := by
  intro s hs hd hx
  obtain ⟨⟨hlow, hhigh⟩, hmark0, hmark1, hother⟩ := putPixel_memories s s.nextDest s.nextPixel
  refine ⟨s.putPixel s.nextDest s.nextPixel, ?_, hlow, hhigh, hmark0, hmark1, hother,
    count_up s.idx s.adim (by omega), rfl⟩
  rw [exec_push_of_encoding hs, pushPixel_next hs hd (by omega)]

/-- Settles O32: the same write, and the completion in the same step. -/
theorem theLastPushCompletesTheBlob : Obligations.TheLastPushCompletesTheBlob := by
  intro s hs hd hx
  obtain ⟨⟨hlow, hhigh⟩, hmark0, hmark1, hother⟩ := putPixel_memories s s.nextDest s.nextPixel
  refine ⟨(s.putPixel s.nextDest s.nextPixel).finishEncode, ?_, hlow, hhigh, hmark0, hmark1, hother,
    (count_up s.idx s.adim (by omega)).trans hx, rfl⟩
  rw [exec_push_of_encoding hs, pushPixel_last hs hd hx]

/-! ### An encode under way (R97 to R100) -/

/-- What an encode of dimension b begun in s has reached with the pixels ps pushed, whether it is complete or not. A
destination that several indices name holds the pixel of the largest (R103). -/
structure EncodedTo (s : State) (b : Dim) (ps : List Word) (t : State) : Prop where
  /-- No table changes. -/
  map : t.map = s.map
  /-- No error is raised. -/
  err : t.err = s.err
  /-- START's dimension stands. -/
  adim : t.adim = b
  /-- START's format stands. -/
  afmt : t.afmt = b.format
  /-- IDX counts the pixels. -/
  idx : t.idx.toNat = ps.length
  /-- The marks are the two bytes of each destination named so far, and no others. -/
  marks : ∀ o, t.marked o = true ↔ ∃ x, x < ps.length ∧ (s.mapEntry b x).toNat = o / 2
  /-- The last pixel written to a destination stands there. -/
  pixels : ∀ x, (h : x < ps.length) → (∀ y, x < y → y < ps.length → s.mapEntry b y ≠ s.mapEntry b x) →
    t.PixelAt (s.mapEntry b x).toNat (quantize b.format ps[x])

section Encode

variable {c : Config} {s t : State} {b : Dim} {ps : List Word}

/-- A write of PIX and the CMD write after it, before the command runs. -/
theorem EncodedTo.setOperand (h : EncodedTo s b ps t) (p : Word) :
    EncodedTo s b ps (((t.setReply none).setPix p).setReply none) :=
  { h with }

theorem EncodedTo.finishEncode (h : EncodedTo s b ps t) : EncodedTo s b ps t.finishEncode := { h with }

/-- The next PUSH takes the table's entry at the number of pixels pushed so far (R98). -/
theorem EncodedTo.nextDest (h : EncodedTo s b ps t) : t.nextDest = s.mapEntry b ps.length := by
  rw [State.nextDest, h.adim, h.idx, mapEntry_congr (congrArg (Banks.get · b) h.map)]

theorem EncodedTo.nextPixel (h : EncodedTo s b ps t) : t.nextPixel = quantize b.format t.pix := by
  rw [State.nextPixel, h.afmt]

/-- A PUSH writes the pixel in PIX over whatever an earlier index left at its destination. -/
theorem EncodedTo.putPixel (h : EncodedTo s b ps t) (hroom : ps.length < b.entries) :
    EncodedTo s b (ps ++ [t.pix]) (t.putPixel t.nextDest t.nextPixel) where
  map := h.map
  err := h.err
  adim := h.adim
  afmt := h.afmt
  idx := by
    have hcount : (t.idx + 1).toNat = t.idx.toNat + 1 := count_up t.idx b (h.idx ▸ hroom)
    rw [State.putPixel_idx, hcount, h.idx, List.length_append, List.length_singleton]
  marks := fun o => by
    rw [marked_putPixel, h.marks, h.nextDest, List.length_append, List.length_singleton, Nat.exists_lt_succ_right,
      or_comm, eq_comm]
  pixels := fun x hx hlast => by
    rw [List.length_append, List.length_singleton] at hx hlast
    rw [h.nextDest, h.nextPixel]
    rcases Nat.lt_succ_iff_lt_or_eq.1 hx with hx | rfl
    · have hother : s.mapEntry b ps.length ≠ s.mapEntry b x := hlast _ hx (Nat.lt_succ_self _)
      rw [List.getElem_append_left hx]
      exact (h.pixels x hx fun y hxy hy => hlast y hxy (Nat.lt_succ_of_lt hy)).putPixel_other
        (mt BitVec.toNat_inj.1 hother) _
    · rw [List.getElem_concat_length rfl]
      exact putPixel_pixelAt _ _ _

theorem EncodedTo.pushPixel_next (h : EncodedTo s b ps t) (ht : t.seq = .encoding)
    (hd : (s.mapEntry b ps.length).toNat < b.entries) (hlen : ps.length + 1 ≠ b.entries) :
    pushPixel t = t.putPixel t.nextDest t.nextPixel :=
  Machine.pushPixel_next ht (by rwa [h.nextDest, h.adim]) (by rwa [h.idx, h.adim])

theorem EncodedTo.pushPixel_last (h : EncodedTo s b ps t) (ht : t.seq = .encoding)
    (hd : (s.mapEntry b ps.length).toNat < b.entries) (hlen : ps.length + 1 = b.entries) :
    pushPixel t = (t.putPixel t.nextDest t.nextPixel).finishEncode :=
  Machine.pushPixel_last ht (by rwa [h.nextDest, h.adim]) (by rwa [h.idx, h.adim])

/-! ### The transactions of ENCODE (R80) -/

theorem startEncode_begins (i : Instr) (hs : s.seq = .idle) (hm : sizeMatches b s.imgdim = true)
    (hb : s.loaded.get b = true) : startEncode i b s = s.beginEncode b b.format := by
  simpa [hs, hm, hb] using startEncode_cases i b s

theorem sizeMatches_required_imageSize (b : Dim) :
    sizeMatches b (imageSize (BitVec.ofNat 16 b.width) (BitVec.ofNat 16 b.height)) = true := by
  cases b <;> decide

/-- START clears every mark, so nothing of an earlier encode stands (R97). -/
theorem encodedTo_beginEncode (s : State) (b : Dim) : EncodedTo s b [] (s.beginEncode b b.format) where
  map := rfl
  err := rfl
  adim := rfl
  afmt := rfl
  idx := rfl
  marks := fun _ => ⟨fun hm => (by cases hm), fun ⟨_, hx, _⟩ => absurd hx (Nat.not_lt_zero _)⟩
  pixels := fun _ hx => absurd hx (Nat.not_lt_zero _)

/-- The size and START: an encode with no pixel pushed. -/
theorem serve_imgdim_start {v : Word} (hs : s.seq = .idle) (hm : sizeMatches b v = true)
    (hb : s.loaded.get b = true) :
    ∃ t, serve c [wrTxn .imgdim v, cmdTxn (startOf b)] s = .next t ∧ t.seq = .encoding ∧ EncodedTo s b [] t := by
  have hwf : (startOf b).wellFormed c = true := by cases b <;> rfl
  have himgdim : transact c (wrTxn .imgdim v) s = .next ((s.setReply none).setImgdim v) := rfl
  refine ⟨(((s.setReply none).setImgdim v).setReply none).beginEncode b b.format, ?_, rfl,
    { encodedTo_beginEncode s b with }⟩
  rw [serve_cons_of_next himgdim, serve_cons_of_next (transact_cmdTxn hwf (by simp [hs])), effect_startOf,
    startEncode_begins (s := ((s.setReply none).setImgdim v).setReply none) _ hs hm hb, serve]

theorem serve_pushPix (p : Word) (ht : t.seq = .encoding) :
    serve c (pushPixTxns p) t = .next (pushPixel (((t.setReply none).setPix p).setReply none)) := by
  have hpix : transact c (wrTxn .pix p) t = .next ((t.setReply none).setPix p) := rfl
  rw [pushPixTxns, serve_cons_of_next hpix, serve_cons_of_next (transact_cmdTxn rfl (by simp [ht])), serve, effect]

/-- One more pixel, which is not the last (R98). -/
theorem EncodedTo.serve_next (h : EncodedTo s b ps t) (p : Word) (ht : t.seq = .encoding)
    (hd : (s.mapEntry b ps.length).toNat < b.entries) (hlen : ps.length + 1 < b.entries) :
    ∃ u, serve c (pushPixTxns p) t = .next u ∧ u.seq = .encoding ∧ EncodedTo s b (ps ++ [p]) u := by
  have hop := h.setOperand p
  have hpush := hop.pushPixel_next ht hd (Nat.ne_of_lt hlen)
  exact ⟨_, (serve_pushPix p ht).trans (congrArg _ hpush), ht, hop.putPixel (Nat.lt_of_succ_lt hlen)⟩

/-- The last pixel, with the completion in the same step (R100). -/
theorem EncodedTo.serve_last (h : EncodedTo s b ps t) (p : Word) (ht : t.seq = .encoding)
    (hd : (s.mapEntry b ps.length).toNat < b.entries) (hlen : ps.length + 1 = b.entries) :
    ∃ u, serve c (pushPixTxns p) t = .next u ∧ u.seq = .idle ∧ u.bvalid = true ∧ EncodedTo s b (ps ++ [p]) u := by
  have hop := h.setOperand p
  have hpush := hop.pushPixel_last ht hd hlen
  exact ⟨_, (serve_pushPix p ht).trans (congrArg _ hpush), rfl, rfl,
    (hop.putPixel (Nat.lt_of_succ_le hlen.le)).finishEncode⟩

theorem encodeTxns_concat (b : Dim) (w h : BitVec 16) (ps : List Word) (p : Word) :
    encodeTxns b w h (ps ++ [p]) = encodeTxns b w h ps ++ pushPixTxns p := by
  simp [encodeTxns]

/-- An encode with fewer than N(b) pixels, by induction on the pixels from the last one back. -/
theorem serve_encode_unfinished {w h : BitVec 16} (hs : s.seq = .idle) (hb : s.loaded.get b = true)
    (hm : sizeMatches b (imageSize w h) = true) (hrange : ∀ x, x < b.entries → (s.mapEntry b x).toNat < b.entries)
    (hlen : ps.length < b.entries) :
    ∃ t, serve c (encodeTxns b w h ps) s = .next t ∧ t.seq = .encoding ∧ EncodedTo s b ps t := by
  induction ps using List.reverseRecOn with
  | nil => exact serve_imgdim_start hs hm hb
  | append_singleton ps p ih =>
    rw [List.length_append, List.length_singleton] at hlen
    obtain ⟨t, hserve, ht, henc⟩ := ih (by omega)
    rw [encodeTxns_concat, serve_append c _ _ _ _ hserve]
    exact henc.serve_next p ht (hrange _ (by omega)) hlen

/-- A whole encode completes (R100), whatever table in range it goes through. -/
theorem serve_encode {w h : BitVec 16} (hs : s.seq = .idle) (hb : s.loaded.get b = true)
    (hm : sizeMatches b (imageSize w h) = true) (hrange : ∀ x, x < b.entries → (s.mapEntry b x).toNat < b.entries)
    (hlen : ps.length = b.entries) :
    ∃ t, serve c (encodeTxns b w h ps) s = .next t ∧ t.seq = .idle ∧ t.bvalid = true ∧ EncodedTo s b ps t := by
  induction ps using List.reverseRecOn with
  | nil => exact absurd hlen.symm (Nat.ne_of_gt (entries_pos b))
  | append_singleton ps p _ =>
    rw [List.length_append, List.length_singleton] at hlen
    obtain ⟨t, hserve, ht, henc⟩ := serve_encode_unfinished (c := c) hs hb hm hrange (ps := ps) (by omega)
    rw [encodeTxns_concat, serve_append c _ _ _ _ hserve]
    exact henc.serve_last p ht (hrange _ (by omega)) hlen

end Encode

/-! ### Bijective tables (R86, R102) -/

theorem State.Bijective.entry_lt {s : State} {b : Dim} (h : s.Bijective b) {x : Nat} (hx : x < b.entries) :
    (s.mapEntry b x).toNat < b.entries := by
  have hcheck : (∀ v ∈ s.table b, v < b.entries) ∧ distinct (s.table b) = true := by
    simpa [State.tableIsBijection] using (tableIsBijection_iff s b).2 h
  exact hcheck.1 _ ((mem_table s b _).2 ⟨x, hx, rfl⟩)

theorem State.Bijective.entry_inj {s : State} {b : Dim} (h : s.Bijective b) {x y : Nat} (hx : x < b.entries)
    (hy : y < b.entries) (he : s.mapEntry b y = s.mapEntry b x) : y = x := by
  obtain ⟨z, -, -, hz⟩ := h _ (h.entry_lt hx)
  exact (hz y hy (congrArg BitVec.toNat he)).trans (hz x hx rfl).symm

/-! ### Reads of the finished blob (R51, R58) -/

/-- A blob offset fits in 16 bits (R40, R49). -/
theorem blobByte_toNat {b : Dim} {o : Nat} (h : o < b.blobBytes) : (BitVec.ofNat 16 o).toNat = o := by
  have := entries_le b
  unfold Dim.blobBytes at h
  rw [BitVec.toNat_ofNat]
  omega

/-- The two bytes of a word assemble to the word (R55). -/
theorem bytesLE_of_bytes (q : QPixel) : bytesLE [q.extractLsb' 0 8, q.extractLsb' 8 8] = q.setWidth 32 := by
  obtain ⟨hsize, hbyte⟩ := bytesLE_spec [q.extractLsb' 0 8, q.extractLsb' 8 8] (by simp)
  have hlow := congrArg BitVec.toNat (hbyte 0 (by simp))
  have hhigh := congrArg BitVec.toNat (hbyte 1 (by simp))
  have hq := q.isLt
  apply BitVec.eq_of_toNat_eq
  simp only [toNat_extractLsb'_eq_div_mod, List.getElem_cons_zero, List.getElem_cons_succ, List.length_cons,
    List.length_nil] at hlow hhigh hsize
  rw [BitVec.toNat_setWidth]
  omega

/-- A 16-bit read of a marked pixel returns it. -/
theorem transact_read_pixel (c : Config) {t : State} {d : Nat} {q : QPixel} (hb : t.bvalid = true)
    (hd : d < t.adim.entries) (hm0 : t.marked (2 * d) = true) (hm1 : t.marked (2 * d + 1) = true)
    (hq : t.PixelAt d q) :
    transact c (.read (windowOffset (BitVec.ofNat 16 (2 * d))) .w16) t = .next (t.setReply (some (q.setWidth 32))) := by
  obtain ⟨hlow, hhigh⟩ := hq
  have h0 : 2 * d < t.adim.blobBytes := by unfold Dim.blobBytes; omega
  have h1 : 2 * d + 1 < t.adim.blobBytes := by unfold Dim.blobBytes; omega
  have hbytes : t.windowBytes (2 * d) 2 = .ok [q.extractLsb' 0 8, q.extractLsb' 8 8] := by
    simp only [State.windowBytes, admittedByte_of_marked t _ h0 hm0, admittedByte_of_marked t _ h1 hm1, hlow, hhigh]
  have hread := readWindow_of_ok hb hbytes
  rw [bytesLE_of_bytes, ← blobByte_toNat h0] at hread
  refine transact_window_next c (by decide) ?_ hread
  rw [blobByte_toNat h0]
  exact Nat.mul_mod_right 2 d

/-- An 8-bit read of an unmarked byte of the blob faults with that byte. -/
theorem transact_read_unwritten (c : Config) {t : State} {o : Nat} (hb : t.bvalid = true) (ho : o < t.adim.blobBytes)
    (hm : t.marked o = false) :
    transact c (.read (windowOffset (BitVec.ofNat 16 o)) .w8) t = .fault (.unwrittenRead o) := by
  have hbytes : t.windowBytes o 1 = .error (.unwrittenRead o) := by
    simp [State.windowBytes, State.admittedByte, hm]
  have hread := readWindow_of_error hb hbytes
  rw [← blobByte_toNat ho] at hread
  rw [transact_window_fault c (by decide) (Nat.mod_one _) hread, blobByte_toNat ho]

/-! ### The finished blob (R102, R103) -/

/-- Settles O34: a bijection names each destination once, so each pixel is the last at its own and none is left out. -/
theorem completeEncodeGivesThePermutedBlob : Obligations.CompleteEncodeGivesThePermutedBlob := by
  intro c b ps s hlen hs hb hbij
  obtain ⟨t, hserve, hseq, hvalid, henc⟩ :=
    serve_encode (c := c) hs hb (sizeMatches_required_imageSize b) (fun _ => hbij.entry_lt) hlen
  refine ⟨t, hserve, hseq, hvalid, henc.adim, henc.idx.trans hlen, henc.err, fun o ho => ?_, fun x hx => ?_⟩
  · obtain ⟨x, hx, hxo, -⟩ := hbij (o / 2) (by unfold Dim.blobBytes at ho; omega)
    exact (henc.marks o).2 ⟨x, hlen ▸ hx, hxo⟩
  · have hlast : ∀ y, x < y → y < ps.length → s.mapEntry b y ≠ s.mapEntry b x := fun y hxy hy he =>
      absurd (hbij.entry_inj (hlen ▸ hx) (hlen ▸ hy) he) (Nat.ne_of_gt hxy)
    obtain ⟨hlow, hhigh⟩ := henc.pixels x hx hlast
    have hd : (s.mapEntry b x).toNat < t.adim.entries := by
      rw [henc.adim]
      exact hbij.entry_lt (hlen ▸ hx)
    have hmark0 := (henc.marks (2 * (s.mapEntry b x).toNat)).2 ⟨x, hx, by omega⟩
    have hmark1 := (henc.marks (2 * (s.mapEntry b x).toNat + 1)).2 ⟨x, hx, by omega⟩
    exact ⟨hlow, hhigh, transact_read_pixel c hvalid hd hmark0 hmark1 ⟨hlow, hhigh⟩⟩

/-- Settles O35: the last pixel written to a destination is that of the largest index, and only named destinations are
marked. -/
theorem theLargestSourceIndexWins : Obligations.TheLargestSourceIndexWins := by
  intro c b ps s hlen hs hb hrange
  obtain ⟨t, hserve, hseq, hvalid, henc⟩ :=
    serve_encode (c := c) hs hb (sizeMatches_required_imageSize b) hrange hlen
  refine ⟨t, hserve, hseq, hvalid, henc.err, henc.pixels, fun d hd hnone => ?_⟩
  have hunmarked : ∀ o, o / 2 = d → t.marked o = false := fun o ho => by
    rw [← Bool.not_eq_true, henc.marks o]
    rintro ⟨x, hx, hxo⟩
    exact hnone x (hlen ▸ hx) (hxo.trans ho)
  have hblob : ∀ o, o / 2 = d → o < t.adim.blobBytes := fun o ho => by
    rw [henc.adim]
    unfold Dim.blobBytes
    omega
  have h0 : 2 * d / 2 = d := by omega
  have h1 : (2 * d + 1) / 2 = d := by omega
  exact ⟨hunmarked _ h0, hunmarked _ h1, transact_read_unwritten c hvalid (hblob _ h0) (hunmarked _ h0),
    transact_read_unwritten c hvalid (hblob _ h1) (hunmarked _ h1)⟩

end Sys2Proof.Machine
end

section
/-! The control commands and the ERROR gate (spec/43_control.md R105, R106). -/

namespace Sys2Proof.Machine

open Sys2Proof

/-! ### The ERROR gate (R106) -/

/-- A CMD write in ERROR is not decoded: its word does not matter. -/
theorem writeCmd_in_error (c : Config) (w : Word) {s : State} (hs : s.seq = .error) : writeCmd c w s = .next s :=
  if_pos hs

/-- Only reset leaves ERROR or clears the record of the first error: of the other transactions reads, operand writes and
ignored writes alone answer a next state there. -/
theorem TxnOf.error_record {c : Config} {s t : State} {x : HostTxn} (h : TxnOf c s x t) (hs : s.seq = .error)
    (hx : x ≠ .reset) : t.seq = .error ∧ t.err = s.err ∧ t.errsub = s.errsub ∧ t.errinfo = s.errinfo := by
  cases h with
  | read | ignored | pix | imgdim => exact ⟨hs, rfl, rfl, rfl⟩
  | command _ _ hne | illegal _ _ hne => exact absurd hs hne
  | reset => exact absurd rfl hx

/-- Settles O8: each command and each CMD write stops at the gate, and no transaction but reset writes the record. -/
theorem errorGateDiscardsEveryCommand : Obligations.ErrorGateDiscardsEveryCommand := by
  intro c s hs
  refine ⟨fun i => ?_, fun w => ?_, fun x t hx ht => (transact_cases c x s t ht).error_record hs hx⟩
  · rw [exec_eq_command, command_error s _ hs]
  · rw [transact_write_cmd, writeCmd_in_error c w (s := s.setReply none) hs]
    rfl

/-! ### NOP (R105) -/

/-- NOP keeps the state on both sides of the ERROR gate. -/
theorem exec_nop (s : State) : exec .nop s = .next s := by
  rw [exec_eq_command]
  by_cases hs : s.seq = .error
  · exact command_error s _ hs
  · exact command_eq s _ hs

theorem encode_nop : encode .nop = 0 := by decide

/-- With OP = 0 the decode is R74's check of RZ and then NOP's row. -/
theorem decode_of_op_zero (hv : Bool) {w : Word} (h : Word.op w = 0) :
    decode hv w = if Word.rz w ≠ 0 then .error .reservedField
      else if Word.dim w ≠ 0 ∨ Word.fmt w ≠ 0 ∨ Word.imm w ≠ 0 then .error .reservedField else .ok .nop := by
  rw [decode, decodeOp, h]
  rfl

theorem decode_eq_nop_iff (hv : Bool) (w : Word) : decode hv w = .ok .nop ↔ w = 0 := by
  rw [decode_ok_iff ⟨hv⟩, encode_nop, eq_comm]
  exact and_iff_left rfl

/-- Settles O14: NOP's word is the only one that decodes to it, so a word of OP 0 is that word or has a reserved field
that is not zero. -/
theorem nopChangesNothing : Obligations.NopChangesNothing := by
  refine ⟨exec_nop, fun hv => (decode_eq_nop_iff hv 0).2 rfl, fun hv w => (decode_eq_nop_iff hv w).1, ?_⟩
  intro hv w hop hw
  have hnop : decode hv w ≠ .ok .nop := fun h => hw ((decode_eq_nop_iff hv w).1 h)
  rw [decode_of_op_zero hv ((op_eq_iff w 0).2 hop)] at hnop ⊢
  split_ifs at hnop ⊢ with hrz hfields
  · rfl
  · rfl
  · exact absurd rfl hnop

end Sys2Proof.Machine
end

section
/-! Errors: their codes in a report (spec/60_exceptions.md R119), START's size check (R109), precise error entry (R112,
R116), and the ERROR state over a run (R117, R127). -/

namespace Sys2Proof.Machine

open Sys2Proof

/-! ### Over a run (R117, R127) -/

/-- Settles O7: an empty list leaves nothing to serve. -/
theorem stepWithNoTransactionKeepsTheState : Obligations.StepWithNoTransactionKeepsTheState := by
  intro s h
  rw [step, serveNext, h]

/-- What every step keeps holds at the end of a run that answers next. -/
theorem run_keeps {M : Host.Core} {P : M.State → Prop} (hstep : ∀ u v, P u → M.step u = .next v → P v) {k : Nat}
    {s t : M.State} (hs : P s) (h : M.run k s = .next t) : P t := by
  induction k generalizing s with
  | zero => cases h; exact hs
  | succ k ih =>
    obtain ⟨u, hu, hrun⟩ := run_succ_next M k s t h
    exact ih (hstep s u hs hu) hrun

/-- No transaction touches the list of those still to come; a reset leaves it too (log entry 12). -/
theorem TxnOf.inbox {c : Config} {s t : State} {x : HostTxn} (h : TxnOf c s x t) : t.inbox = s.inbox := by
  cases h with
  | command _ i => exact (effect_cases i _).operands.1
  | _ => rfl

/-- In ERROR only reset writes BVALID: no command runs. -/
theorem TxnOf.error_bvalid {c : Config} {s t : State} {x : HostTxn} (h : TxnOf c s x t) (hs : s.seq = .error)
    (hx : x ≠ .reset) : t.bvalid = s.bvalid := by
  cases h with
  | read | ignored | pix | imgdim => rfl
  | command _ _ hne | illegal _ _ hne => exact absurd hs hne
  | reset => exact absurd rfl hx

/-- `t` is in ERROR with BVALID and the record of `s`, and no reset is pending that could end it. -/
structure State.LastsInError (s t : State) : Prop where
  seq : t.seq = .error
  bvalid : t.bvalid = s.bvalid
  err : t.err = s.err
  errsub : t.errsub = s.errsub
  errinfo : t.errinfo = s.errinfo
  noReset : HostTxn.reset ∉ t.inbox

/-- The transaction that a step serves comes from the list, so it is no reset, and the rest of the list holds none. -/
theorem State.LastsInError.step {s u v : State} (hu : s.LastsInError u) (h : step u = .next v) : s.LastsInError v := by
  rcases step_cases u v h with ⟨-, rfl⟩ | ⟨x, xs, hxs, htxn⟩
  · exact hu
  · have hnot : HostTxn.reset ∉ x :: xs := hxs ▸ hu.noReset
    have hx : x ≠ .reset := (List.ne_of_not_mem_cons hnot).symm
    obtain ⟨hseq, herr, hsub, hinfo⟩ := htxn.error_record hu.seq hx
    exact {
      seq := hseq
      bvalid := (htxn.error_bvalid hu.seq hx).trans hu.bvalid
      err := herr.trans hu.err
      errsub := hsub.trans hu.errsub
      errinfo := hinfo.trans hu.errinfo
      noReset := htxn.inbox ▸ List.not_mem_of_not_mem_cons hnot }

/-- Settles O9: every step keeps the ERROR state, its record and the absence of a reset, so every run does. -/
theorem errorLastsOverARunWithoutReset : Obligations.ErrorLastsOverARunWithoutReset := by
  intro k s t hs hreset hrun
  have hlasts : s.LastsInError t :=
    run_keeps (M := Sys2Proof.core) (fun _ _ => State.LastsInError.step) ⟨hs, rfl, rfl, rfl, rfl, hreset⟩ hrun
  exact ⟨hlasts.seq, hlasts.bvalid, hlasts.err, hlasts.errsub, hlasts.errinfo⟩

/-! ### Error entry (R112, R116) -/

/-- A command enters ERROR only by raising an error: its other effects leave it in the STATE they name or the one it
found. -/
theorem EffectOf.raises_of_error {s t : State} {i : Instr} (h : EffectOf s i t) (hs : s.seq ≠ .error)
    (ht : t.seq = .error) : ∃ e n v, e ≠ .none ∧ t = s.raiseError e n v := by
  cases h with
  | raise _ e n v he => exact ⟨e, n, v, he, rfl⟩
  | nop | appendEntry | recordVerify | setQout | pixel => exact absurd ht hs
  | beginLoad | endLoad | beginEncode | lastPixel => cases ht

/-- Settles O12: the command raised an error, and raising one is all that it did. -/
theorem errorEntryIsPrecise : Obligations.ErrorEntryIsPrecise := by
  intro i s t hs hexec ht
  rw [exec_eq_next i hs] at hexec
  cases hexec
  obtain ⟨e, n, v, he, heffect⟩ := (effect_cases i s).raises_of_error hs ht
  rw [heffect]
  exact ⟨rfl, he⟩

/-! ### START's size check (R109) -/

theorem imageWidth_toNat (v : Word) : (imageWidth v).toNat = v.toNat / 2 ^ 16 := by
  rw [imageWidth, toNat_extractLsb'_eq_div_mod]
  omega

theorem imageHeight_toNat (v : Word) : (imageHeight v).toNat = v.toNat % 2 ^ 16 := by
  rw [imageHeight, toNat_extractLsb'_eq_div_mod, pow_zero, Nat.div_one]

/-- Width and height fill IMGDIM, so one word alone has the required size. -/
theorem sizeMatches_iff (b : Dim) (v : Word) :
    sizeMatches b v = true ↔ v = BitVec.ofNat 32 (b.width * 2 ^ 16 + b.height) := by
  refine ⟨fun h => ?_, fun h => h ▸ sizeMatches_required b⟩
  simp only [sizeMatches, Bool.and_eq_true, decide_eq_true_eq, imageWidth_toNat, imageHeight_toNat] at h
  obtain ⟨hw, hh⟩ := h
  rw [← hw, ← hh, Nat.div_add_mod', BitVec.ofNat_toNat, BitVec.setWidth_eq]

theorem startEncode_wrongSize (i : Instr) {b : Dim} {s : State} (hs : s.seq = .idle)
    (hm : sizeMatches b s.imgdim = false) :
    startEncode i b s = s.raiseError .dimensionError (sizeSub b) s.imgdim := by
  simpa [hs, hm] using startEncode_cases i b s

/-- Settles O30: the size check comes before the LOADED bit's (R114), so the bank plays no part. -/
theorem startOfAWrongSizeIsDimensionError : Obligations.StartOfAWrongSizeIsDimensionError := by
  intro b s hs himg
  have hm : sizeMatches b s.imgdim = false := Bool.eq_false_iff.2 (mt (sizeMatches_iff b s.imgdim).1 himg)
  have hsub : sizeSub b = if b = .d256 then 1 else 0 := by cases b <;> rfl
  rw [exec_of_idle _ hs, effect_startOf, startEncode_wrongSize _ hs hm, hsub]
  rfl

/-! ### Reports (R119) -/

/-- Each code names one error (R108): the codes number the errors in the order of R108's table. -/
theorem ErrCode.code_injective : Function.Injective ErrCode.code := by
  have hback : Function.LeftInverse (fun c : BitVec 4 => ErrCode.ofNat c.toNat) ErrCode.code := by
    intro e
    cases e <;> rfl
  exact hback.injective

/-- In ERROR the host takes no blob (R138). -/
theorem output_in_error {s : State} (hs : s.seq = .error) : s.output = none := if_pos hs

/-- Settles O53: each code has its one error, whose report is R119's row. -/
theorem errorsReportAsTheDocumentsCodes : Obligations.ErrorsReportAsTheDocumentsCodes := by
  have hrow : ∀ (e' e : ErrCode), e.code = e'.code → e.report = e'.report := fun _ _ h => by
    rw [ErrCode.code_injective h]
  refine ⟨hrow .dimensionError, hrow .resourceError, hrow .destOutOfRange, fun e h => ?_, fun _ => output_in_error⟩
  rcases h with h | h | h
  · exact hrow .illegalCommand e h
  · exact hrow .sequenceError e h
  · exact hrow .mapImmutable e h

end Sys2Proof.Machine
end

section
/-! Reset from any state (spec/70_reset_and_hazards.md R129), and the host's liberties one at a time (R137). -/

namespace Sys2Proof.Machine

open Sys2Proof

/-! ### Reset (R129) -/

/-- Reset passes no gate: the reset input is served in every STATE, with no bus error to raise. -/
theorem transact_reset (c : Config) (s : State) : transact c .reset s = .next s.applyReset := rfl

/-- Settles O55: reset reads nothing of the state but the host's list. -/
theorem resetLeavesEveryState : Obligations.ResetLeavesEveryState := by
  intro c s
  rw [transact_reset, State.applyReset]

/-! ### The host's liberties (R137) -/

/-- Settles O50: a liberty's next state is the old one after some PIX, IMGDIM, QOUT and reply, which are then its own. -/
theorem theHostsLibertiesDisturbNothing : Obligations.TheHostsLibertiesDisturbNothing := by
  intro c x s t hx ht
  have hliberty : Liberty x := hx
  obtain ⟨p, d, q, r, rfl⟩ := transact_liberty hliberty ht
  rfl

end Sys2Proof.Machine
end
